-- ==== Sys2Proof/Word.lean ====
section
/-! DEFINITION. The words the block exchanges and stores. All are unsigned and bit 0 is the least significant (00_scope.md R11). -/

namespace Sys2Proof

/-- A sample register, accumulator, queue word, `ERRVAL` or response data field: 16 bits (R19, R24, R38, R62). -/
abbrev Word := BitVec 16

/-- A command word `CMD[15:0]` (30_encoding.md R54). -/
abbrev CmdWord := BitVec 16

/-- A response word `RSP[18:0]` (R62). -/
abbrev RspWord := BitVec 19

/-- An event word `EV[4:0]` (R63). -/
abbrev EvWord := BitVec 5

/-- A level of a line: `true` is high, 1; `false` is low, 0 (R16, R44). -/
abbrev Level := Bool

end Sys2Proof
end

