-- ==== Sys2Proof/Syntax.lean ====
section
/-! DEFINITION. The seven commands (30_encoding.md R57), one constructor a row of the opcode table. -/

namespace Sys2Proof

inductive Instr where
  /-- `POLL` (44_poll.md R114). -/
  | poll
  /-- `SAMPLE` (43_channel_accessor.md R109). -/
  | sample
  /-- `CHANNEL idx` (R110). The index is a number, as the source has it ("for any non-negative k"); the encoding admits 0 to 4095
  (R56), which `Instr.wellFormed` checks. -/
  | channel (idx : Nat)
  /-- `COUNT` (R111). -/
  | count
  /-- `TEARDOWN` (45_lifecycle.md R122). -/
  | teardown
  /-- `SETPRESS en` (R124). -/
  | setpress (en : Bool)
  /-- `SETRELEASE en` (R125). -/
  | setrelease (en : Bool)
  deriving DecidableEq, Repr

end Sys2Proof
end

