-- ==== Sys2Proof/WellFormed.lean ====
section
/-! DEFINITION. Which commands the encoding can express (30_encoding.md R56). -/

namespace Sys2Proof

/-- The one operand check: the index of `CHANNEL` is "an unsigned integer from 0 to 4095" (R56, `IDX_W` = 12 of R8). -/
def Instr.wellFormed : Instr → Bool
  | .poll => true
  | .sample => true
  | .channel idx => decide (idx < 4096)
  | .count => true
  | .teardown => true
  | .setpress _ => true
  | .setrelease _ => true

end Sys2Proof
end

