-- ==== Sys2Proof/Decode.lean ====
section
/-! DEFINITION. Decoding, total on 16-bit words (30_encoding.md R68), the encoder, and the opcode table (R57). -/

namespace Sys2Proof

/-- Why a word is no command. -/
inductive Reserved where
  /-- `op` is 0x0 or 0x8 to 0xF (R57, R59). -/
  | reservedOp
  /-- `op` is one of the seven and a must-be-zero bit is set (R58). -/
  | mustBeZero
  deriving DecidableEq, Repr

inductive Decoded where
  | command (i : Instr)
  | reserved (why : Reserved)
  deriving DecidableEq, Repr

/-- `op` = `CMD[15:12]` (R54). -/
def opField (w : CmdWord) : BitVec 4 := w.extractLsb' 12 4

/-- `arg` = `idx` = `CMD[11:0]` (R54, R55). -/
def idxField (w : CmdWord) : BitVec 12 := w.extractLsb' 0 12

/-- `en` = `CMD[0]` (R55). -/
def enField (w : CmdWord) : Bool := w.getLsbD 0

/-- R68's `decode`, in its order. -/
def decode (w : CmdWord) : Decoded :=
  if w = 0x1000#16 then .command .poll
  else if w = 0x2000#16 then .command .sample
  else if opField w = 0x3#4 then .command (.channel (idxField w).toNat)
  else if w = 0x4000#16 then .command .count
  else if w = 0x5000#16 then .command .teardown
  else if w.extractLsb' 1 15 = 0x3000#15 then .command (.setpress (enField w))
  else if w.extractLsb' 1 15 = 0x3800#15 then .command (.setrelease (enField w))
  else if opField w = 0x0#4 ∨ 0x8#4 ≤ opField w then .reserved .reservedOp
  else .reserved .mustBeZero

/-- A command word from its two fields (R54, R55). -/
def commandWord (op : BitVec 4) (arg : BitVec 12) : CmdWord := op ++ arg

/-- The `arg` field of `SETPRESS` and `SETRELEASE`: `en` in bit 0, `mbz` above it (R55). -/
def enArg (en : Bool) : BitVec 12 := 0#11 ++ BitVec.ofBool en

/-- The encoder: R57's `op` codes over R55's fields. It is the inverse of `decode` on well-formed commands (R68). -/
def encode : Instr → CmdWord
  | .poll => commandWord 0x1#4 0
  | .sample => commandWord 0x2#4 0
  | .channel idx => commandWord 0x3#4 (BitVec.ofNat 12 idx)
  | .count => commandWord 0x4#4 0
  | .teardown => commandWord 0x5#4 0
  | .setpress en => commandWord 0x6#4 (enArg en)
  | .setrelease en => commandWord 0x7#4 (enArg en)

/-- A row of the opcode map (R57). -/
structure OpcodeRow where
  mnemonic : String
  pattern  : CmdWord
  mask     : CmdWord
  deriving DecidableEq, Repr

/-- "A word `w` selects the row whose `w and mask` = `match`." (R57) -/
def OpcodeRow.selects (r : OpcodeRow) (w : CmdWord) : Bool := w &&& r.mask == r.pattern

/-- R57's map. -/
def opcodeMap : List OpcodeRow :=
  [ ⟨"POLL", 0x1000, 0xFFFF⟩,
    ⟨"SAMPLE", 0x2000, 0xFFFF⟩,
    ⟨"CHANNEL", 0x3000, 0xF000⟩,
    ⟨"COUNT", 0x4000, 0xFFFF⟩,
    ⟨"TEARDOWN", 0x5000, 0xFFFF⟩,
    ⟨"SETPRESS", 0x6000, 0xFFFE⟩,
    ⟨"SETRELEASE", 0x7000, 0xFFFE⟩ ]

/-- The written name of a command (R66). -/
def Instr.mnemonic : Instr → String
  | .poll => "POLL"
  | .sample => "SAMPLE"
  | .channel _ => "CHANNEL"
  | .count => "COUNT"
  | .teardown => "TEARDOWN"
  | .setpress _ => "SETPRESS"
  | .setrelease _ => "SETRELEASE"

/-- The word a table row's number stands for: every command is one 16-bit word (R54, R61), so bit `i` of the number is bit `i`
of the word and the bits above `nbits` are 0. -/
def tableWord (nbits w : Nat) : CmdWord := BitVec.ofNat 16 (w % 2 ^ nbits)

/-- The instruction the decoder reads from the word numbered as spec/opcode_table.json numbers its bits. -/
def decodeTableWord (nbits w : Nat) : Option Instr :=
  match decode (tableWord nbits w) with
  | .command i => some i
  | .reserved _ => none

end Sys2Proof
end

