-- ==== Sys2Proof/Config.lean ====
section
/-! DEFINITION. What is fixed for one machine (straps, open parameters) and the free values (00_scope.md R8, 30_encoding.md R65).

The timing parameters `T_BB_STEP`, `F_ENGINE`, `T_SETTLE`, `T_PERIOD` of R8 are left out: the model keeps no time and no rule
depends on them (70_reset_and_hazards.md R165). `IDX_W` = 12 is part of the encoding. -/

namespace Sys2Proof

/-- `MODE` (10_state.md R14). -/
inductive KeyMode where
  | key8
  | key16
  deriving DecidableEq, Repr

/-- `POL` (R15). -/
inductive Polarity where
  | activeHigh
  | inverted
  deriving DecidableEq, Repr

/-- `BACKEND` (R17). -/
inductive Backend where
  | bitbang
  | hwassist
  deriving DecidableEq, Repr

/-- `FIFO_FULL_POLICY` (R8, 20_memory.md R42). -/
inductive FullPolicy where
  | stall
  | dropNew
  deriving DecidableEq, Repr

/-- `HW_SETTLE_LEVEL` (R8, 41_hw_assisted_acquisition.md R89). -/
inductive SettleLevel where
  | idle
  | active
  deriving DecidableEq, Repr

/-- `SCK_RESET_LEVEL` (R8, 92_eei_decisions.md D9). -/
inductive ResetLevel where
  | low
  | high
  | undriven
  deriving DecidableEq, Repr

/-- `SDO_PULL` (R8, 10_state.md R28). -/
inductive Pull where
  | none
  | up
  | down
  deriving DecidableEq, Repr

/-- The open parameters of the platform (R8). The model keeps them in the state, where no step writes them. -/
structure Platform where
  fifoDepth     : Nat
  fullPolicy    : FullPolicy
  settleLevel   : SettleLevel
  sckResetLevel : ResetLevel
  sdoPull       : Pull
  deriving DecidableEq, Repr

/-- "integer >= 1" (R8, `FIFO_DEPTH`). -/
def Platform.wellFormed (p : Platform) : Bool := decide (1 ≤ p.fifoDepth)

/-- The strap inputs as they stand when reset ends, one bit each and `ACQ_ERR` 16 bits (R65). -/
structure Straps where
  mode    : Bool
  pol     : Bool
  backend : Bool
  acqFail : Bool
  acqErr  : Word
  deriving DecidableEq, Repr

/-- The parameters `State.reset` takes: the decided policy and settle level (D13, D16).
DESIGN CHOICE, unsafe (log entries 4 and 6): depth 2, no pull, clock pad undriven. -/
def Platform.reference : Platform :=
  { fifoDepth := 2, fullPolicy := .stall, settleLevel := .idle, sckResetLevel := .undriven, sdoPull := .none }

/-- The straps `State.reset` takes: the source's defaults 16-key and active-high (R65).
DESIGN CHOICE, unsafe (log entry 3): bit-bang backend, resources acquired, error value 0. -/
def Straps.reference : Straps :=
  { mode := true, pol := false, backend := false, acqFail := false, acqErr := 0 }

/-- The agents that take steps (R10). The device takes none: it is the oracle of `SDO`. -/
inductive Agent where
  | host
  | sequencer
  | engine
  deriving DecidableEq, Repr, Inhabited

/-- One event of the line trace: `sck(v)` (20_memory.md R43) or `sdo(b)` (R44). -/
inductive LineEvent where
  | sck (v : Level)
  | sdo (b : Level)
  deriving DecidableEq, Repr

/-- FREE VALUE: the level the device drives at an `SDO` read the state's `device` list does not give. It may depend on the
pull, on the whole trace so far and on the number of the draw (R44, 93 U9; log entry 7). -/
opaque Config.sdoLevel : Pull → List LineEvent → Nat → Level

/-- FREE VALUE: which agent moves at a step for which the state's `turns` list is empty and more than one agent can move
(R50; log entry 2). The argument is the number of the draw. -/
opaque Config.freeTurn : Nat → Agent

end Sys2Proof
end

