-- ==== Sys2Proof/Machine/Levels.lean ====
section
/-! DEFINITION. What the straps mean: strap bits to configuration (30_encoding.md R65), `MODE` to `N` (10_state.md R14), `POL` to the
two clock levels (R16), the parameter levels. -/

namespace Sys2Proof

/-- Strap `MODE`: 0 is 8-key, 1 is 16-key (R65). -/
def KeyMode.ofStrap (b : Bool) : KeyMode := if b then .key16 else .key8

/-- Strap `POL`: 0 is active-high, 1 is inverted (R65). -/
def Polarity.ofStrap (b : Bool) : Polarity := if b then .inverted else .activeHigh

/-- Strap `BACKEND`: 0 is `BITBANG`, 1 is `HWASSIST` (R65). -/
def Backend.ofStrap (b : Bool) : Backend := if b then .hwassist else .bitbang

/-- The engine and the queue exist on `HWASSIST` only (R29, R30). -/
def Backend.hasEngine : Backend → Bool
  | .bitbang => false
  | .hwassist => true

/-- `N`, the Channel Count (R14). -/
def KeyMode.channels : KeyMode → Nat
  | .key8 => 8
  | .key16 => 16

/-- `ACTIVE` (R16). -/
def Polarity.active : Polarity → Level
  | .activeHigh => true
  | .inverted => false

/-- `IDLE` (R16). -/
def Polarity.idle : Polarity → Level
  | .activeHigh => false
  | .inverted => true

/-- The level `HW_SETTLE_LEVEL` names under a polarity (41 R89). -/
def SettleLevel.level (v : SettleLevel) (p : Polarity) : Level :=
  match v with
  | .idle => p.idle
  | .active => p.active

/-- `SCK_OUT` after reset (R32): `IDLE` on `HWASSIST`, `SCK_RESET_LEVEL` on `BITBANG`.
DESIGN CHOICE (log entry 6): where the pad is undriven the bit itself is 0 and `sckUnset` says that it drives nothing. -/
def resetSckOut (l : ResetLevel) (b : Backend) (p : Polarity) : Level :=
  match b, l with
  | .hwassist, _ => p.idle
  | .bitbang, .high => true
  | .bitbang, .low => false
  | .bitbang, .undriven => false

/-- `E_RUN` after reset: 1 when `BACKEND` = `HWASSIST` and `FAILED` = 0, else 0 (R32, 70 R150). -/
def resetEngineRun (b : Backend) (failed : Bool) : Bool := b.hasEngine && !failed

/-- The `undriven` choice of `SCK_RESET_LEVEL`, which exists on the bit-bang backend only (R8, R32, D9). -/
def resetSckUnset (l : ResetLevel) (b : Backend) : Bool :=
  match b, l with
  | .bitbang, .undriven => true
  | .bitbang, .low => false
  | .bitbang, .high => false
  | .hwassist, _ => false

end Sys2Proof
end

