-- ==== Sys2Proof/Machine/State.lean ====
section
/-! DEFINITION. The state of the machine (10_state.md R13), its reset (R32), and the reasons a step can stop. -/

namespace Sys2Proof.Machine

/-- The phases of a bit-bang acquisition (10_state.md R25). -/
inductive Phase where
  | start
  | rise
  | capt
  | fall
  | final
  deriving DecidableEq, Repr

/-- `SEQ`, the sequencer's position (R25). -/
inductive SeqPos where
  | ready
  | acq (i : Nat) (ph : Phase)
  | scan (i : Nat)
  | evwait (i : Nat)
  deriving DecidableEq, Repr

/-- `PSTATE` (R26). -/
inductive PollState where
  | idle
  | sampleReady
  deriving DecidableEq, Repr

/-- `E_SEQ`, the engine's position (R30, 41 R83). -/
inductive EnginePos where
  | hold
  | rise
  | capt
  | fall
  | emit
  | settle
  deriving DecidableEq, Repr

/-- What the host and the platform can do to the block (70_reset_and_hazards.md R164). -/
inductive HostAct where
  /-- Present a command word on the command port. -/
  | cmd (w : CmdWord)
  /-- Acknowledge the event on the event port: the handler has returned (42 R103). -/
  | ack
  /-- Assert reset; the straps are those that stand as reset ends (R148, R152). -/
  | reset (st : Straps)
  deriving DecidableEq, Repr

/-- The whole state. The fields from `host` on are the MODEL's own: inputs still to come, records of outputs, marks. -/
structure State where
  /-- The open parameters (00_scope.md R8); no step writes them. -/
  plat       : Platform
  /-- `MODE` (R14). -/
  mode       : KeyMode
  /-- `POL` (R15). -/
  pol        : Polarity
  /-- `BACKEND` (R17). -/
  backend    : Backend
  /-- `CUR` (R19). -/
  cur        : Word
  /-- `PREV` (R20). -/
  prev       : Word
  /-- `ACC` (R21). -/
  acc        : Word
  /-- `PRESS_SET` (R22). -/
  pressSet   : Bool
  /-- `RELEASE_SET` (R22). -/
  releaseSet : Bool
  /-- `RELEASED` (R23). -/
  released   : Bool
  /-- `FAILED` (R24). -/
  failed     : Bool
  /-- `ERRVAL` (R24). -/
  errval     : Word
  /-- `SEQ` (R25). -/
  seq        : SeqPos
  /-- `SCK_OUT` (R27). -/
  sckOut     : Level
  /-- `SCK_OE` (R27). -/
  sckOe      : Bool
  /-- `FIFO`, oldest word first (R29, 20_memory.md R37, R38). -/
  fifo       : List Word
  /-- `E_RUN` (R30). -/
  eRun       : Bool
  /-- `E_SEQ` (R30). -/
  eSeq       : EnginePos
  /-- `E_BIT` (R30). -/
  eBit       : Nat
  /-- `E_ACC` (R30). -/
  eAcc       : Word
  /-- The event port: the word that awaits its acknowledge (30_encoding.md R63, 46 R168). -/
  evPort     : Option EvWord
  /-- Host actions still to come, oldest first; the command port's word is the head. -/
  host       : List HostAct
  /-- Which agents move next (20_memory.md R50). -/
  turns      : List Agent
  /-- The levels the next `SDO` reads return, oldest first (R44). -/
  device     : List Level
  /-- How many free values have been drawn. -/
  draws      : Nat
  /-- The line trace, oldest first (R43, R44); no rule reads it back (10_state.md R33). -/
  trace      : List LineEvent
  /-- Every response word returned, oldest first (R62). -/
  rspLog     : List RspWord
  /-- Every event word emitted, oldest first (R63). -/
  evLog      : List EvWord
  /-- The clock pad has been given no level since reset: `SCK_RESET_LEVEL` = undriven (00_scope.md R8, log entry 6). -/
  sckUnset   : Bool
  /-- The data pin is set up as the block's input and not yet released (R36, R45, R149; log entry 8). -/
  sdoIn      : Bool
  deriving DecidableEq, Repr

/-- Reasons a step can stop with no further step. None is a fault status of the spec: those are responses (60_exceptions.md R129).
None can be reached from a state that meets `Sys2Proof.Safety.Inv`. -/
inductive Fault where
  /-- `FifoPop` on an empty queue; raised by `fifoPop`. Safe: 20_memory.md R40 asks for stuck. -/
  | popOfEmptyQueue
  /-- `LineWrite` with `SCK_OE` = 0; raised by `lineWrite`. Safe: R43 requires `SCK_OE` = 1 and gives no effect otherwise. -/
  | clockNotDriven
  /-- `LineRead` after `LineRelease(SDO)`; raised by `lineRead`. Safe: R45 says none occurs. -/
  | dataLineReleased
  /-- A sequencer or engine position outside the spec's tables (10_state.md R25, R30); raised by `seqStep` and `engineStep`.
  Safe: no rule gives such a position a step. -/
  | badPosition
  deriving DecidableEq, Repr

/-- Reasons a step has no meaning. -/
inductive Refusal where
  /-- An instruction without a meaning; raised by `exec`'s rejected arms (there are none left). Safe. -/
  | notModelled (mnemonic : String)
  /-- `exec` applied while the command port accepts nothing (40 R78, 44 R119); raised by every command's meaning. `step` never does
  this: there the word waits on the port. Safe. -/
  | portClosed
  /-- An acknowledge while no event was emitted and no command is in progress; raised by `hostTurn`. Safe: 70 R164 assumes it never
  happens and gives it no meaning. -/
  | ackWithoutEvent
  deriving DecidableEq, Repr

/-- The outcome of one step. -/
abbrev Result := Host.Outcome State Fault Refusal

/-- The state after reset with the given parameters and straps (10_state.md R32, 70 R147 to R151).
DESIGN CHOICE where the spec gives no value: `ACC` 0 (log entry 5), `SCK_OUT` of an undriven pad (log entry 6). The model's own
fields start empty (log entries 1, 2, 7). -/
def State.resetWith (p : Platform) (st : Straps) : State where
  plat       := p
  mode       := KeyMode.ofStrap st.mode
  pol        := Polarity.ofStrap st.pol
  backend    := Backend.ofStrap st.backend
  cur        := 0
  prev       := 0
  acc        := 0
  pressSet   := false
  releaseSet := false
  released   := false
  failed     := st.acqFail
  errval     := st.acqErr
  seq        := .ready
  sckOut     := resetSckOut p.sckResetLevel (Backend.ofStrap st.backend) (Polarity.ofStrap st.pol)
  sckOe      := !st.acqFail
  fifo       := []
  eRun       := resetEngineRun (Backend.ofStrap st.backend) st.acqFail
  eSeq       := .hold
  eBit       := 0
  eAcc       := 0
  evPort     := none
  host       := []
  turns      := []
  device     := []
  draws      := 0
  trace      := []
  rspLog     := []
  evLog      := []
  sckUnset   := resetSckUnset p.sckResetLevel (Backend.ofStrap st.backend)
  sdoIn      := !st.acqFail

/-- The state after reset with the reference parameters and straps (log entries 3, 4, 6). -/
def State.reset : State := State.resetWith Platform.reference Straps.reference

end Sys2Proof.Machine
end

