-- ==== Sys2Proof/Machine/Operands.lean ====
section
/-! DEFINITION. Operand forms, single-bit operations and the words of the response and event ports (30_encoding.md R56, R62 to R64,
46_operation_classes.md R167). -/

namespace Sys2Proof.Machine

/-- `N` of the machine (10_state.md R14). -/
def State.n (s : State) : Nat := s.mode.channels

/-- `ACTIVE` of the machine (R16). -/
def State.active (s : State) : Level := s.pol.active

/-- `IDLE` of the machine (R16). -/
def State.idle (s : State) : Level := s.pol.idle

/-- `PSTATE`: sample-ready exactly while the dispatcher scans or waits (R26). -/
def SeqPos.pollState : SeqPos → PollState
  | .ready => .idle
  | .acq _ _ => .idle
  | .scan _ => .sampleReady
  | .evwait _ => .sampleReady

/-- The command port accepts a word in `READY` and in `EVWAIT(i)` only (R25, 44 R119). -/
def SeqPos.accepts : SeqPos → Bool
  | .ready => true
  | .acq _ _ => false
  | .scan _ => false
  | .evwait _ => true

/-- The position is `EVWAIT(_)`. -/
def SeqPos.waits : SeqPos → Bool
  | .ready => false
  | .acq _ _ => false
  | .scan _ => false
  | .evwait _ => true

/-- The position has a step of the sequencer's own: it is clocking or scanning (46 R168). -/
def SeqPos.moves : SeqPos → Bool
  | .ready => false
  | .acq _ _ => true
  | .scan _ => true
  | .evwait _ => false

/-- `PSTATE` of the machine (R26). -/
def State.pstate (s : State) : PollState := s.seq.pollState

/-- The command port accepts a word now. -/
def State.portOpen (s : State) : Bool := s.seq.accepts

/-- An event awaits its acknowledge now. -/
def State.waiting (s : State) : Bool := s.seq.waits

/-- The level the device sees on the clock wire, or none where the block drives nothing (R27; log entry 6 for `sckUnset`). -/
def State.wire (s : State) : Option Level :=
  if s.sckOe && !s.sckUnset then some s.sckOut else none

/-- `CHANNEL`'s index, "idx mod N" (43 R110). -/
def channelIndex (idx n : Nat) : Nat := idx % n

/-- `R[i] <- b`: one bit written, the others keep their value (46 R167). -/
def writeBit (w : Word) (i : Nat) (b : Bool) : Word :=
  if b then w ||| BitVec.twoPow 16 i else w &&& ~~~(BitVec.twoPow 16 i)

/-- `zext_16` of one bit (R62). -/
def bitData (b : Bool) : Word := if b then 1 else 0

/-- Response status (30_encoding.md R64). -/
inductive Status where
  | ok
  | illegalCommand
  | useAfterRelease
  | busy
  | acquireFailed
  deriving DecidableEq, Repr

/-- The code of a status (R64). -/
def Status.code : Status → BitVec 3
  | .ok => 0
  | .illegalCommand => 1
  | .useAfterRelease => 2
  | .busy => 3
  | .acquireFailed => 4

/-- `RSP` = `{status, data}` (R62). -/
def rspWord (st : Status) (data : Word) : RspWord := st.code ++ data

/-- The kind of a transition (42 R98). -/
inductive EvKind where
  | press
  | release
  deriving DecidableEq, Repr

/-- `EV` = `{kind, i[3:0]}` (R63, 42 R103). -/
def evWord (k : EvKind) (i : Nat) : EvWord :=
  (match k with
    | .press => 1#1
    | .release => 0#1) ++ BitVec.ofNat 4 i

/-- The word that `N` captured levels make: the level of pulse `i` is bit `i` (20_memory.md R46). -/
def sampleWord : List Level → Word
  | [] => 0
  | b :: bs => (sampleWord bs <<< 1) ||| bitData b

end Sys2Proof.Machine
end

