-- ==== Sys2Proof/Machine/Flags.lean ====
section
/-! DEFINITION. The handler presence flags and the classification of a changed bit (10_state.md R22, 42_edge_dispatch.md R98, R100). -/

namespace Sys2Proof.Machine

/-- `CUR[i] != PREV[i]` and, if so, the class: press when the new bit is 1, release when it is 0 (R98). -/
def edge (prev cur : Word) (i : Nat) : Option EvKind :=
  if cur.getLsbD i = prev.getLsbD i then none
  else if cur.getLsbD i then some .press else some .release

/-- Whether the handler of a kind is present, on the two presence bits (R22, R100). -/
def handlerPresent (pressSet releaseSet : Bool) : EvKind → Bool
  | .press => pressSet
  | .release => releaseSet

/-- The event bit `i` gives rise to, if any (R98, R104). -/
def edgeEvent (pressSet releaseSet : Bool) (prev cur : Word) (i : Nat) : Option EvKind :=
  (edge prev cur i).filter (handlerPresent pressSet releaseSet)

/-- `PRESS_SET <- en` (45_lifecycle.md R124). -/
def setPressFlag (en : Bool) (s : State) : State := { s with pressSet := en }

/-- `RELEASE_SET <- en` (R125). -/
def setReleaseFlag (en : Bool) (s : State) : State := { s with releaseSet := en }

/-- `RELEASED <- 1` (R122). -/
def setReleasedFlag (s : State) : State := { s with released := true }

end Sys2Proof.Machine
end

