-- ==== Sys2Proof/Machine/Ops.lean ====
section
/-! DEFINITION. The primitives of 00_scope.md R12 over the pins, the queue and the ports, the one fault operation, and reset as an input.

There is no memory (20_memory.md R35), so no `MemRead` and no `MemWrite`; `wait(T)` is a no-op (70 R166). -/

namespace Sys2Proof.Machine

/-- Sequence two operations; a stop of the first is the outcome. -/
def andThen {α β : Type} (r : Host.Outcome α Fault Refusal) (k : α → Host.Outcome β Fault Refusal) :
    Host.Outcome β Fault Refusal :=
  match r with
  | .next a => k a
  | .fault f => .fault f
  | .refused e => .refused e

/-- `SEQ <- p`. -/
def gotoSeq (p : SeqPos) (s : State) : State := { s with seq := p }

/-- The clock driver takes level `v` and the trace records it, whether or not it is an edge (20_memory.md R43). -/
def driveSck (v : Level) (s : State) : State :=
  { s with sckOut := v, sckUnset := false, trace := s.trace ++ [.sck v] }

/-- `LineWrite(SCK, v)`: requires `SCK_OE` = 1 (R43). -/
def lineWrite (v : Level) (s : State) : Result :=
  if s.sckOe then .next (driveSck v s) else .fault .clockNotDriven

/-- The level a read of `SDO` returns and the state after its draw: the head of `device`, or a free value (R44). -/
def drawLevel (s : State) : Level × State :=
  match s.device with
  | b :: rest => (b, { s with device := rest })
  | [] => (Config.sdoLevel s.plat.sdoPull s.trace s.draws, { s with draws := s.draws + 1 })

/-- The trace records `sdo(b)` (R44). -/
def recordRead (b : Level) (s : State) : State := { s with trace := s.trace ++ [.sdo b] }

/-- `LineRead(SDO)`: one level, drawn once, recorded in the trace (R44); none occurs after `LineRelease(SDO)` (R45). -/
def lineRead (s : State) : Host.Outcome (Level × State) Fault Refusal :=
  if s.sdoIn then .next ((drawLevel s).1, recordRead (drawLevel s).1 (drawLevel s).2) else .fault .dataLineReleased

/-- `LineRelease(SCK)`: `SCK_OE <- 0`; `SCK_OUT` is kept and drives no longer (R45, 93 U10). -/
def releaseSck (s : State) : State := { s with sckOe := false }

/-- `LineRelease(SDO)`: the block's use of the data line ends (R45). -/
def releaseSdo (s : State) : State := { s with sdoIn := false }

/-- `FifoCount()` (R39). -/
def fifoCount (s : State) : Nat := s.fifo.length

/-- `FifoPop()`: the oldest word leaves (R40); on an empty queue the machine is stuck. -/
def fifoPop (s : State) : Host.Outcome (Word × State) Fault Refusal :=
  match s.fifo with
  | w :: rest => .next (w, { s with fifo := rest })
  | [] => .fault .popOfEmptyQueue

/-- `FifoPush(w)` is enabled (R41). -/
def fifoHasRoom (s : State) : Bool := decide (s.fifo.length < s.plat.fifoDepth)

/-- `FifoPush(w)`: `w` becomes the newest word (R41). -/
def fifoPush (w : Word) (s : State) : State := { s with fifo := s.fifo ++ [w] }

/-- The queue is discarded (45_lifecycle.md R122). -/
def fifoFlush (s : State) : State := { s with fifo := [] }

/-- A word leaves on the response port. -/
def putResponse (r : RspWord) (s : State) : State := { s with rspLog := s.rspLog ++ [r] }

/-- `Respond` leaves `SEQ` at `READY`, except in `EVWAIT(i)`, where it stays (30_encoding.md R62). -/
def seqAfterRespond : SeqPos → SeqPos
  | .ready => .ready
  | .acq _ _ => .ready
  | .scan _ => .ready
  | .evwait i => .evwait i

/-- `Respond(status, data)` (R62). -/
def respond (st : Status) (data : Word) (s : State) : State :=
  gotoSeq (seqAfterRespond s.seq) (putResponse (rspWord st data) s)

/-- The spec's faults (60_exceptions.md R130 to R133). -/
inductive CmdFault where
  | illegalCommand
  | useAfterRelease
  | busy
  | acquireFailed
  deriving DecidableEq, Repr

/-- The status of a fault (30_encoding.md R64). -/
def CmdFault.status : CmdFault → Status
  | .illegalCommand => .illegalCommand
  | .useAfterRelease => .useAfterRelease
  | .busy => .busy
  | .acquireFailed => .acquireFailed

/-- `info`: `ERRVAL` for `AcquireFailed`, 0 for the others (R62, 60 R129, R131). -/
def CmdFault.info (f : CmdFault) (s : State) : Word :=
  match f with
  | .illegalCommand => 0
  | .useAfterRelease => 0
  | .busy => 0
  | .acquireFailed => s.errval

/-- The response word a fault answers with. -/
def faultWord (f : CmdFault) (s : State) : RspWord := rspWord f.status (f.info s)

/-- `raise <Fault>(info)`, the one fault operation: the response is the whole effect; no state changes and `SEQ` stays as it was
(60 R129, R138). There is no return from a fault because nothing was entered (R139). -/
def raiseFault (f : CmdFault) (s : State) : State := putResponse (faultWord f s) s

/-- What every command begins with: the port must be open (R119), and `FAILED` = 1 is tested before anything else (60 R137). -/
def command (s : State) (body : State → Result) : Result :=
  if s.portOpen = false then .refused .portClosed
  else if s.failed then .next (raiseFault .acquireFailed s)
  else body s

/-- A reserved word is answered `IllegalCommand`, or `AcquireFailed` when `FAILED` = 1 (30_encoding.md R59, 60 R130, R137). -/
def illegalWord (s : State) : Result := command s fun t => .next (raiseFault .illegalCommand t)

/-- `Emit(kind, i)`: the event word stands on the event port and the block waits (42_edge_dispatch.md R103). -/
def emitEvent (k : EvKind) (i : Nat) (s : State) : State :=
  { s with evPort := some (evWord k i), evLog := s.evLog ++ [evWord k i], seq := .evwait i }

/-- The host acknowledges the event of bit `i`: the word is withdrawn and the scan goes on (R103, 46 R168). -/
def acknowledge (i : Nat) (s : State) : State := { s with evPort := none, seq := .scan (i + 1) }

/-- Reset as an input at any time: every piece of the block's state goes to its reset value, an outstanding event is withdrawn, a
command in progress gets no response (70 R147, R152). What is outside the block stays: the parameters, the inputs still to
come, the records of what has left it. -/
def resetBlock (st : Straps) (s : State) : State :=
  { State.resetWith s.plat st with
    host := s.host, turns := s.turns, device := s.device, draws := s.draws,
    trace := s.trace, rspLog := s.rspLog, evLog := s.evLog }

/-- A command word placed where the next step takes it: at the head of the host's actions, the host moving next, the port open.
It stands for the host presenting the word (00_scope.md R9; log entry 1). -/
def placeCommand (w : CmdWord) (s : State) : State :=
  { s with
    host := .cmd w :: s.host, turns := .host :: s.turns,
    seq := if s.portOpen then s.seq else .ready }

end Sys2Proof.Machine
end

