-- ==== Sys2Proof/Machine/Accessor.lean ====
section
/-! DEFINITION. The read-only commands `SAMPLE`, `CHANNEL`, `COUNT` (43_channel_accessor.md). They answer whenever `FAILED` = 0, after
`TEARDOWN` and inside a handler too (R113). -/

namespace Sys2Proof.Machine

/-- `SAMPLE` (R109). -/
def execSample (s : State) : Result := command s fun t => .next (respond .ok t.cur t)

/-- `CHANNEL idx` (R110). -/
def execChannel (idx : Nat) (s : State) : Result :=
  command s fun t => .next (respond .ok (bitData (t.cur.getLsbD (channelIndex idx t.n))) t)

/-- `COUNT` (R111). -/
def execCount (s : State) : Result := command s fun t => .next (respond .ok (BitVec.ofNat 16 t.n) t)

end Sys2Proof.Machine
end

