-- ==== Sys2Proof/Machine/Lifecycle.lean ====
section
/-! DEFINITION. `TEARDOWN`, `SETPRESS`, `SETRELEASE` (45_lifecycle.md). -/

namespace Sys2Proof.Machine

/-- The engine stops where it is: `E_RUN <- 0`; its position and half-built word stay and are never read again (R122, D35). -/
def stopEngine (s : State) : State := { s with eRun := false }

/-- What the active backend holds is released (R122). -/
def releaseResources (s : State) : State :=
  match s.backend with
  | .bitbang => releaseSdo (releaseSck s)
  | .hwassist => releaseSdo (releaseSck (fifoFlush (stopEngine s)))

/-- `TEARDOWN` (R122); a second one is answered `OK` and does nothing (R123). -/
def execTeardown (s : State) : Result :=
  command s fun t =>
    if t.waiting then .next (raiseFault .busy t)
    else if t.released then .next (respond .ok 0 t)
    else .next (respond .ok 0 (setReleasedFlag (releaseResources t)))

/-- `SETPRESS en` (R124). -/
def execSetpress (en : Bool) (s : State) : Result := command s fun t => .next (respond .ok 0 (setPressFlag en t))

/-- `SETRELEASE en` (R125). -/
def execSetrelease (en : Bool) (s : State) : Result := command s fun t => .next (respond .ok 0 (setReleaseFlag en t))

end Sys2Proof.Machine
end

