-- ==== Sys2Proof/Machine/Poll.lean ====
section
/-! DEFINITION. `POLL` (44_poll.md R114): what the acceptance of the command does. On `BITBANG` and on a taken word the sequencer
goes on from there (Machine/Sequencer.lean), one row of 46_operation_classes.md R168 a step, and returns the response at its end. -/

namespace Sys2Proof.Machine

/-- `ACQ_HW` (41_hw_assisted_acquisition.md R91) with what `POLL` does on its result: an empty queue is answered 0, else the oldest
word becomes `CUR` and the dispatcher begins. -/
def acquireQueued (s : State) : Result :=
  if fifoCount s = 0 then .next (respond .ok 0 s)
  else andThen (fifoPop s) fun p => .next (gotoSeq (.scan 0) { p.2 with cur := p.1 })

/-- `POLL` (R114). -/
def execPoll (s : State) : Result :=
  command s fun t =>
    if t.waiting then .next (raiseFault .busy t)
    else if t.released then .next (raiseFault .useAfterRelease t)
    else
      match t.backend with
      | .bitbang => .next (gotoSeq (.acq 0 .start) t)
      | .hwassist => acquireQueued t

end Sys2Proof.Machine
end

