-- ==== Sys2Proof/Machine/Dispatch.lean ====
section
/-! DEFINITION. `exec`: one arm a command. -/

namespace Sys2Proof.Machine

def exec (i : Instr) (s : State) : Host.Outcome State Fault Refusal :=
  match i with
  | .poll => Sys2Proof.Machine.execPoll s
  | .sample => Sys2Proof.Machine.execSample s
  | .channel idx => Sys2Proof.Machine.execChannel idx s
  | .count => Sys2Proof.Machine.execCount s
  | .teardown => Sys2Proof.Machine.execTeardown s
  | .setpress en => Sys2Proof.Machine.execSetpress en s
  | .setrelease en => Sys2Proof.Machine.execSetrelease en s

end Sys2Proof.Machine
end

