-- ==== Sys2Proof/Machine/Engine.lean ====
section
/-! DEFINITION. The engine, one position of the listing of 41_hw_assisted_acquisition.md R83 a step (log entry 10). -/

namespace Sys2Proof.Machine

/-- `E_SEQ <- p`. -/
def gotoEngine (p : EnginePos) (s : State) : State := { s with eSeq := p }

/-- The engine exists on `HWASSIST` only and runs while `E_RUN` = 1 (R82, R83). -/
def engineLive (s : State) : Bool := s.backend.hasEngine && s.eRun

/-- At `EMIT` with a full queue under `stall`: the push is not enabled and the engine holds (20_memory.md R42). -/
def engineStalled (s : State) : Bool :=
  match s.eSeq, s.plat.fullPolicy with
  | .emit, .stall => !fifoHasRoom s
  | _, _ => false

/-- The engine can move. -/
def engineEnabled (s : State) : Bool := engineLive s && !engineStalled s

/-- `HOLD`: `LineWrite(SCK, IDLE)`; `E_ACC <- 0`; the bit loop starts at 0 (R83, R84, R87). -/
def engineHold (s : State) : Result :=
  andThen (lineWrite s.idle s) fun t => .next (gotoEngine .rise { t with eAcc := 0, eBit := 0 })

/-- `RISE` (R85). -/
def engineRise (s : State) : Result :=
  andThen (lineWrite s.active s) fun t => .next (gotoEngine .capt t)

/-- `CAPT`: the level read becomes bit `E_BIT` (R86). -/
def engineCapture (s : State) : Result :=
  andThen (lineRead s) fun p => .next (gotoEngine .fall { p.2 with eAcc := writeBit p.2.eAcc p.2.eBit p.1 })

/-- The loop's end: the next bit, or `EMIT` after bit `N` - 1 (R83). -/
def engineNextBit (s : State) : State :=
  if s.eBit + 1 < s.n then gotoEngine .rise { s with eBit := s.eBit + 1 } else gotoEngine .emit s

/-- `FALL` (R85). -/
def engineFall (s : State) : Result :=
  andThen (lineWrite s.idle s) fun t => .next (engineNextBit t)

/-- `EMIT`: push where there is room; at a full queue hold, or drop the word (R88, 20_memory.md R42). -/
def engineEmit (s : State) : State :=
  if fifoHasRoom s then gotoEngine .settle (fifoPush s.eAcc s)
  else
    match s.plat.fullPolicy with
    | .stall => s
    | .dropNew => gotoEngine .settle s

/-- `SETTLE`: `LineWrite(SCK, HW_SETTLE_LEVEL)`; the wait is a no-op (R89, 70 R166). -/
def engineSettle (s : State) : Result :=
  andThen (lineWrite (s.plat.settleLevel.level s.pol) s) fun t => .next (gotoEngine .hold t)

/-- The step of a running engine; a bit index that R30 does not have is stuck. -/
def engineRunStep (s : State) : Result :=
  match s.eSeq with
  | .hold => engineHold s
  | .rise => if s.eBit < s.n then engineRise s else .fault .badPosition
  | .capt => if s.eBit < s.n then engineCapture s else .fault .badPosition
  | .fall => if s.eBit < s.n then engineFall s else .fault .badPosition
  | .emit => .next (engineEmit s)
  | .settle => engineSettle s

/-- One step of the engine; where it does not run nothing happens. -/
def engineStep (s : State) : Result :=
  if engineLive s then engineRunStep s else .next s

end Sys2Proof.Machine
end

