-- ==== Sys2Proof/Machine/Sequencer.lean ====
section
/-! DEFINITION. The block sequencer's own steps: the bit-bang acquisition `ACQ_BB` (40_bitbang_acquisition.md R70) and the dispatcher
`DISPATCH` (42_edge_dispatch.md R99), one row of 46_operation_classes.md R168 a step. -/

namespace Sys2Proof.Machine

/-- `ACQ(0, START)`: `ACC <- 0`; `LineWrite(SCK, IDLE)` (R71, R72). -/
def acqStart (s : State) : Result :=
  andThen (lineWrite s.idle { s with acc := 0 }) fun t => .next (gotoSeq (.acq 0 .rise) t)

/-- `ACQ(i, RISE)` (R73). -/
def acqRise (i : Nat) (s : State) : Result :=
  andThen (lineWrite s.active s) fun t => .next (gotoSeq (.acq i .capt) t)

/-- "if b == 1: ACC[i] <- 1" (R74). -/
def captureBit (acc : Word) (i : Nat) (b : Level) : Word := if b then writeBit acc i true else acc

/-- `ACQ(i, CAPT)` (R74). -/
def acqCapture (i : Nat) (s : State) : Result :=
  andThen (lineRead s) fun p => .next (gotoSeq (.acq i .fall) { p.2 with acc := captureBit p.2.acc i p.1 })

/-- Where the acquisition goes after bit `i` (R168). -/
def afterFall (i n : Nat) : SeqPos := if i + 1 < n then .acq (i + 1) .rise else .acq n .final

/-- `ACQ(i, FALL)` (R75). -/
def acqFall (i : Nat) (s : State) : Result :=
  andThen (lineWrite s.idle s) fun t => .next (gotoSeq (afterFall i s.n) t)

/-- `ACQ(N, FINAL)`: the clock is left at `ACTIVE`, then `CUR <- ACC` (R76). -/
def acqFinal (s : State) : Result :=
  andThen (lineWrite s.active s) fun t => .next (gotoSeq (.scan 0) { t with cur := t.acc })

/-- One step of `ACQ_BB`; a position R25 does not have is stuck. -/
def acqStep (i : Nat) (ph : Phase) (s : State) : Result :=
  match ph with
  | .start => if i = 0 then acqStart s else .fault .badPosition
  | .rise => if i < s.n then acqRise i s else .fault .badPosition
  | .capt => if i < s.n then acqCapture i s else .fault .badPosition
  | .fall => if i < s.n then acqFall i s else .fault .badPosition
  | .final => if i = s.n then acqFinal s else .fault .badPosition

/-- `SCAN(i)`, `i` < `N`: emit, or go on to the next bit (R99, R100, R104). -/
def scanBit (i : Nat) (s : State) : State :=
  match edgeEvent s.pressSet s.releaseSet s.prev s.cur i with
  | some k => emitEvent k i s
  | none => gotoSeq (.scan (i + 1)) s

/-- `SCAN(N)`: `PREV <- CUR`; `Respond(OK, 1)` (R102, 44 R116, R117). -/
def scanEnd (s : State) : State := respond .ok 1 { s with prev := s.cur }

/-- One step of `DISPATCH`; a position R25 does not have is stuck. -/
def scanStep (i : Nat) (s : State) : Result :=
  if i < s.n then .next (scanBit i s)
  else if i = s.n then .next (scanEnd s)
  else .fault .badPosition

/-- The sequencer has a step of its own now. -/
def seqEnabled (s : State) : Bool := s.seq.moves

/-- One step of the block sequencer; in `READY` and `EVWAIT(i)` it waits for the host and nothing happens. -/
def seqStep (s : State) : Result :=
  match s.seq with
  | .ready => .next s
  | .acq i ph => acqStep i ph s
  | .scan i => scanStep i s
  | .evwait _ => .next s

end Sys2Proof.Machine
end

