-- ==== Sys2Proof/Machine/Agents.lean ====
section
/-! DEFINITION. Who moves, and the host's move: a word accepted from the command port, an acknowledge, a reset (00_scope.md R10,
20_memory.md R50, 70 R164). -/

namespace Sys2Proof.Machine

/-- A word the port accepts: a command is executed, a reserved word is answered with a fault (R59, 60 R137). -/
def runWord (w : CmdWord) (s : State) : Result :=
  match decode w with
  | .command i => exec i s
  | .reserved _ => illegalWord s

/-- The host's acknowledge. In `READY` no event was emitted and the spec gives it no meaning (70 R164); while the block clocks or
scans the host is blocked and the acknowledge waits. -/
def hostAck (rest : List HostAct) (s : State) : Result :=
  match s.seq with
  | .ready => .refused .ackWithoutEvent
  | .acq _ _ => .next s
  | .scan _ => .next s
  | .evwait i => .next (acknowledge i { s with host := rest })

/-- The host's next action. A command word waits while the port accepts nothing (40 R78, 44 R119). -/
def hostTurn (s : State) : Result :=
  match s.host with
  | [] => .next s
  | .cmd w :: rest => if s.portOpen then runWord w { s with host := rest } else .next s
  | .ack :: rest => hostAck rest s
  | .reset st :: rest => .next (resetBlock st { s with host := rest })

/-- The host's next action can happen now. -/
def hostEnabled (s : State) : Bool :=
  match s.host with
  | [] => false
  | .cmd _ :: _ => s.portOpen
  | .ack :: _ => s.portOpen
  | .reset _ :: _ => true

/-- One move of an agent. An agent that cannot move changes nothing. -/
def agentTurn (a : Agent) (s : State) : Result :=
  match a with
  | .host => hostTurn s
  | .sequencer => seqStep s
  | .engine => engineStep s

/-- The agents that can move. -/
def enabledAgents (s : State) : List Agent :=
  (if hostEnabled s then [.host] else []) ++ (if seqEnabled s then [.sequencer] else []) ++
    (if engineEnabled s then [.engine] else [])

/-- The move of a step that `turns` does not settle: nothing where no agent can move (the block waits, 70 R164), the one agent that
can, or one the free value names (20_memory.md R50; log entry 2). -/
def unscheduledTurn (s : State) : Result :=
  match enabledAgents s with
  | [] => .next s
  | [a] => agentTurn a s
  | _ :: _ :: _ => agentTurn (Config.freeTurn s.draws) { s with draws := s.draws + 1 }

/-- One move of the whole: the agent `turns` names, else `unscheduledTurn`. -/
def nextTurn (s : State) : Result :=
  match s.turns with
  | a :: rest => agentTurn a { s with turns := rest }
  | [] => unscheduledTurn s

end Sys2Proof.Machine
end

