-- ==== Sys2Proof/Machine/Step.lean ====
section
/-! DEFINITION. One step of the machine, and a command word placed where it is taken next. -/

namespace Sys2Proof.Machine

/-- One step: one agent makes one move (20_memory.md R50). -/
def step (s : State) : Host.Outcome State Fault Refusal := nextTurn s

/-- The word stands on the command port and the host moves next, so that `step` accepts and runs exactly it (log entry 1). -/
def State.withFetchWord (s : State) (nbits w : Nat) : State := placeCommand (tableWord nbits w) s

end Sys2Proof.Machine
end

