-- ==== Sys2Proof/Laws/State.lean ====
section
/-! SUPPORT. What each named update of the state does to each field: one lemma per field per update, true by rfl. -/

namespace Sys2Proof.Machine

section gotoSeq
variable (p : SeqPos) (s : State)
@[simp] theorem gotoSeq_plat : (gotoSeq p s).plat = s.plat := rfl
@[simp] theorem gotoSeq_mode : (gotoSeq p s).mode = s.mode := rfl
@[simp] theorem gotoSeq_pol : (gotoSeq p s).pol = s.pol := rfl
@[simp] theorem gotoSeq_backend : (gotoSeq p s).backend = s.backend := rfl
@[simp] theorem gotoSeq_cur : (gotoSeq p s).cur = s.cur := rfl
@[simp] theorem gotoSeq_prev : (gotoSeq p s).prev = s.prev := rfl
@[simp] theorem gotoSeq_acc : (gotoSeq p s).acc = s.acc := rfl
@[simp] theorem gotoSeq_pressSet : (gotoSeq p s).pressSet = s.pressSet := rfl
@[simp] theorem gotoSeq_releaseSet : (gotoSeq p s).releaseSet = s.releaseSet := rfl
@[simp] theorem gotoSeq_released : (gotoSeq p s).released = s.released := rfl
@[simp] theorem gotoSeq_failed : (gotoSeq p s).failed = s.failed := rfl
@[simp] theorem gotoSeq_errval : (gotoSeq p s).errval = s.errval := rfl
@[simp] theorem gotoSeq_seq : (gotoSeq p s).seq = p := rfl
@[simp] theorem gotoSeq_sckOut : (gotoSeq p s).sckOut = s.sckOut := rfl
@[simp] theorem gotoSeq_sckOe : (gotoSeq p s).sckOe = s.sckOe := rfl
@[simp] theorem gotoSeq_fifo : (gotoSeq p s).fifo = s.fifo := rfl
@[simp] theorem gotoSeq_eRun : (gotoSeq p s).eRun = s.eRun := rfl
@[simp] theorem gotoSeq_eSeq : (gotoSeq p s).eSeq = s.eSeq := rfl
@[simp] theorem gotoSeq_eBit : (gotoSeq p s).eBit = s.eBit := rfl
@[simp] theorem gotoSeq_eAcc : (gotoSeq p s).eAcc = s.eAcc := rfl
@[simp] theorem gotoSeq_evPort : (gotoSeq p s).evPort = s.evPort := rfl
@[simp] theorem gotoSeq_host : (gotoSeq p s).host = s.host := rfl
@[simp] theorem gotoSeq_turns : (gotoSeq p s).turns = s.turns := rfl
@[simp] theorem gotoSeq_device : (gotoSeq p s).device = s.device := rfl
@[simp] theorem gotoSeq_draws : (gotoSeq p s).draws = s.draws := rfl
@[simp] theorem gotoSeq_trace : (gotoSeq p s).trace = s.trace := rfl
@[simp] theorem gotoSeq_rspLog : (gotoSeq p s).rspLog = s.rspLog := rfl
@[simp] theorem gotoSeq_evLog : (gotoSeq p s).evLog = s.evLog := rfl
@[simp] theorem gotoSeq_sckUnset : (gotoSeq p s).sckUnset = s.sckUnset := rfl
@[simp] theorem gotoSeq_sdoIn : (gotoSeq p s).sdoIn = s.sdoIn := rfl
end gotoSeq

section driveSck
variable (v : Level) (s : State)
@[simp] theorem driveSck_plat : (driveSck v s).plat = s.plat := rfl
@[simp] theorem driveSck_mode : (driveSck v s).mode = s.mode := rfl
@[simp] theorem driveSck_pol : (driveSck v s).pol = s.pol := rfl
@[simp] theorem driveSck_backend : (driveSck v s).backend = s.backend := rfl
@[simp] theorem driveSck_cur : (driveSck v s).cur = s.cur := rfl
@[simp] theorem driveSck_prev : (driveSck v s).prev = s.prev := rfl
@[simp] theorem driveSck_acc : (driveSck v s).acc = s.acc := rfl
@[simp] theorem driveSck_pressSet : (driveSck v s).pressSet = s.pressSet := rfl
@[simp] theorem driveSck_releaseSet : (driveSck v s).releaseSet = s.releaseSet := rfl
@[simp] theorem driveSck_released : (driveSck v s).released = s.released := rfl
@[simp] theorem driveSck_failed : (driveSck v s).failed = s.failed := rfl
@[simp] theorem driveSck_errval : (driveSck v s).errval = s.errval := rfl
@[simp] theorem driveSck_seq : (driveSck v s).seq = s.seq := rfl
@[simp] theorem driveSck_sckOut : (driveSck v s).sckOut = v := rfl
@[simp] theorem driveSck_sckOe : (driveSck v s).sckOe = s.sckOe := rfl
@[simp] theorem driveSck_fifo : (driveSck v s).fifo = s.fifo := rfl
@[simp] theorem driveSck_eRun : (driveSck v s).eRun = s.eRun := rfl
@[simp] theorem driveSck_eSeq : (driveSck v s).eSeq = s.eSeq := rfl
@[simp] theorem driveSck_eBit : (driveSck v s).eBit = s.eBit := rfl
@[simp] theorem driveSck_eAcc : (driveSck v s).eAcc = s.eAcc := rfl
@[simp] theorem driveSck_evPort : (driveSck v s).evPort = s.evPort := rfl
@[simp] theorem driveSck_host : (driveSck v s).host = s.host := rfl
@[simp] theorem driveSck_turns : (driveSck v s).turns = s.turns := rfl
@[simp] theorem driveSck_device : (driveSck v s).device = s.device := rfl
@[simp] theorem driveSck_draws : (driveSck v s).draws = s.draws := rfl
@[simp] theorem driveSck_trace : (driveSck v s).trace = s.trace ++ [.sck v] := rfl
@[simp] theorem driveSck_rspLog : (driveSck v s).rspLog = s.rspLog := rfl
@[simp] theorem driveSck_evLog : (driveSck v s).evLog = s.evLog := rfl
@[simp] theorem driveSck_sckUnset : (driveSck v s).sckUnset = false := rfl
@[simp] theorem driveSck_sdoIn : (driveSck v s).sdoIn = s.sdoIn := rfl
end driveSck

section recordRead
variable (b : Level) (s : State)
@[simp] theorem recordRead_plat : (recordRead b s).plat = s.plat := rfl
@[simp] theorem recordRead_mode : (recordRead b s).mode = s.mode := rfl
@[simp] theorem recordRead_pol : (recordRead b s).pol = s.pol := rfl
@[simp] theorem recordRead_backend : (recordRead b s).backend = s.backend := rfl
@[simp] theorem recordRead_cur : (recordRead b s).cur = s.cur := rfl
@[simp] theorem recordRead_prev : (recordRead b s).prev = s.prev := rfl
@[simp] theorem recordRead_acc : (recordRead b s).acc = s.acc := rfl
@[simp] theorem recordRead_pressSet : (recordRead b s).pressSet = s.pressSet := rfl
@[simp] theorem recordRead_releaseSet : (recordRead b s).releaseSet = s.releaseSet := rfl
@[simp] theorem recordRead_released : (recordRead b s).released = s.released := rfl
@[simp] theorem recordRead_failed : (recordRead b s).failed = s.failed := rfl
@[simp] theorem recordRead_errval : (recordRead b s).errval = s.errval := rfl
@[simp] theorem recordRead_seq : (recordRead b s).seq = s.seq := rfl
@[simp] theorem recordRead_sckOut : (recordRead b s).sckOut = s.sckOut := rfl
@[simp] theorem recordRead_sckOe : (recordRead b s).sckOe = s.sckOe := rfl
@[simp] theorem recordRead_fifo : (recordRead b s).fifo = s.fifo := rfl
@[simp] theorem recordRead_eRun : (recordRead b s).eRun = s.eRun := rfl
@[simp] theorem recordRead_eSeq : (recordRead b s).eSeq = s.eSeq := rfl
@[simp] theorem recordRead_eBit : (recordRead b s).eBit = s.eBit := rfl
@[simp] theorem recordRead_eAcc : (recordRead b s).eAcc = s.eAcc := rfl
@[simp] theorem recordRead_evPort : (recordRead b s).evPort = s.evPort := rfl
@[simp] theorem recordRead_host : (recordRead b s).host = s.host := rfl
@[simp] theorem recordRead_turns : (recordRead b s).turns = s.turns := rfl
@[simp] theorem recordRead_device : (recordRead b s).device = s.device := rfl
@[simp] theorem recordRead_draws : (recordRead b s).draws = s.draws := rfl
@[simp] theorem recordRead_trace : (recordRead b s).trace = s.trace ++ [.sdo b] := rfl
@[simp] theorem recordRead_rspLog : (recordRead b s).rspLog = s.rspLog := rfl
@[simp] theorem recordRead_evLog : (recordRead b s).evLog = s.evLog := rfl
@[simp] theorem recordRead_sckUnset : (recordRead b s).sckUnset = s.sckUnset := rfl
@[simp] theorem recordRead_sdoIn : (recordRead b s).sdoIn = s.sdoIn := rfl
end recordRead

section releaseSck
variable (s : State)
@[simp] theorem releaseSck_plat : (releaseSck s).plat = s.plat := rfl
@[simp] theorem releaseSck_mode : (releaseSck s).mode = s.mode := rfl
@[simp] theorem releaseSck_pol : (releaseSck s).pol = s.pol := rfl
@[simp] theorem releaseSck_backend : (releaseSck s).backend = s.backend := rfl
@[simp] theorem releaseSck_cur : (releaseSck s).cur = s.cur := rfl
@[simp] theorem releaseSck_prev : (releaseSck s).prev = s.prev := rfl
@[simp] theorem releaseSck_acc : (releaseSck s).acc = s.acc := rfl
@[simp] theorem releaseSck_pressSet : (releaseSck s).pressSet = s.pressSet := rfl
@[simp] theorem releaseSck_releaseSet : (releaseSck s).releaseSet = s.releaseSet := rfl
@[simp] theorem releaseSck_released : (releaseSck s).released = s.released := rfl
@[simp] theorem releaseSck_failed : (releaseSck s).failed = s.failed := rfl
@[simp] theorem releaseSck_errval : (releaseSck s).errval = s.errval := rfl
@[simp] theorem releaseSck_seq : (releaseSck s).seq = s.seq := rfl
@[simp] theorem releaseSck_sckOut : (releaseSck s).sckOut = s.sckOut := rfl
@[simp] theorem releaseSck_sckOe : (releaseSck s).sckOe = false := rfl
@[simp] theorem releaseSck_fifo : (releaseSck s).fifo = s.fifo := rfl
@[simp] theorem releaseSck_eRun : (releaseSck s).eRun = s.eRun := rfl
@[simp] theorem releaseSck_eSeq : (releaseSck s).eSeq = s.eSeq := rfl
@[simp] theorem releaseSck_eBit : (releaseSck s).eBit = s.eBit := rfl
@[simp] theorem releaseSck_eAcc : (releaseSck s).eAcc = s.eAcc := rfl
@[simp] theorem releaseSck_evPort : (releaseSck s).evPort = s.evPort := rfl
@[simp] theorem releaseSck_host : (releaseSck s).host = s.host := rfl
@[simp] theorem releaseSck_turns : (releaseSck s).turns = s.turns := rfl
@[simp] theorem releaseSck_device : (releaseSck s).device = s.device := rfl
@[simp] theorem releaseSck_draws : (releaseSck s).draws = s.draws := rfl
@[simp] theorem releaseSck_trace : (releaseSck s).trace = s.trace := rfl
@[simp] theorem releaseSck_rspLog : (releaseSck s).rspLog = s.rspLog := rfl
@[simp] theorem releaseSck_evLog : (releaseSck s).evLog = s.evLog := rfl
@[simp] theorem releaseSck_sckUnset : (releaseSck s).sckUnset = s.sckUnset := rfl
@[simp] theorem releaseSck_sdoIn : (releaseSck s).sdoIn = s.sdoIn := rfl
end releaseSck

section releaseSdo
variable (s : State)
@[simp] theorem releaseSdo_plat : (releaseSdo s).plat = s.plat := rfl
@[simp] theorem releaseSdo_mode : (releaseSdo s).mode = s.mode := rfl
@[simp] theorem releaseSdo_pol : (releaseSdo s).pol = s.pol := rfl
@[simp] theorem releaseSdo_backend : (releaseSdo s).backend = s.backend := rfl
@[simp] theorem releaseSdo_cur : (releaseSdo s).cur = s.cur := rfl
@[simp] theorem releaseSdo_prev : (releaseSdo s).prev = s.prev := rfl
@[simp] theorem releaseSdo_acc : (releaseSdo s).acc = s.acc := rfl
@[simp] theorem releaseSdo_pressSet : (releaseSdo s).pressSet = s.pressSet := rfl
@[simp] theorem releaseSdo_releaseSet : (releaseSdo s).releaseSet = s.releaseSet := rfl
@[simp] theorem releaseSdo_released : (releaseSdo s).released = s.released := rfl
@[simp] theorem releaseSdo_failed : (releaseSdo s).failed = s.failed := rfl
@[simp] theorem releaseSdo_errval : (releaseSdo s).errval = s.errval := rfl
@[simp] theorem releaseSdo_seq : (releaseSdo s).seq = s.seq := rfl
@[simp] theorem releaseSdo_sckOut : (releaseSdo s).sckOut = s.sckOut := rfl
@[simp] theorem releaseSdo_sckOe : (releaseSdo s).sckOe = s.sckOe := rfl
@[simp] theorem releaseSdo_fifo : (releaseSdo s).fifo = s.fifo := rfl
@[simp] theorem releaseSdo_eRun : (releaseSdo s).eRun = s.eRun := rfl
@[simp] theorem releaseSdo_eSeq : (releaseSdo s).eSeq = s.eSeq := rfl
@[simp] theorem releaseSdo_eBit : (releaseSdo s).eBit = s.eBit := rfl
@[simp] theorem releaseSdo_eAcc : (releaseSdo s).eAcc = s.eAcc := rfl
@[simp] theorem releaseSdo_evPort : (releaseSdo s).evPort = s.evPort := rfl
@[simp] theorem releaseSdo_host : (releaseSdo s).host = s.host := rfl
@[simp] theorem releaseSdo_turns : (releaseSdo s).turns = s.turns := rfl
@[simp] theorem releaseSdo_device : (releaseSdo s).device = s.device := rfl
@[simp] theorem releaseSdo_draws : (releaseSdo s).draws = s.draws := rfl
@[simp] theorem releaseSdo_trace : (releaseSdo s).trace = s.trace := rfl
@[simp] theorem releaseSdo_rspLog : (releaseSdo s).rspLog = s.rspLog := rfl
@[simp] theorem releaseSdo_evLog : (releaseSdo s).evLog = s.evLog := rfl
@[simp] theorem releaseSdo_sckUnset : (releaseSdo s).sckUnset = s.sckUnset := rfl
@[simp] theorem releaseSdo_sdoIn : (releaseSdo s).sdoIn = false := rfl
end releaseSdo

section fifoPush
variable (w : Word) (s : State)
@[simp] theorem fifoPush_plat : (fifoPush w s).plat = s.plat := rfl
@[simp] theorem fifoPush_mode : (fifoPush w s).mode = s.mode := rfl
@[simp] theorem fifoPush_pol : (fifoPush w s).pol = s.pol := rfl
@[simp] theorem fifoPush_backend : (fifoPush w s).backend = s.backend := rfl
@[simp] theorem fifoPush_cur : (fifoPush w s).cur = s.cur := rfl
@[simp] theorem fifoPush_prev : (fifoPush w s).prev = s.prev := rfl
@[simp] theorem fifoPush_acc : (fifoPush w s).acc = s.acc := rfl
@[simp] theorem fifoPush_pressSet : (fifoPush w s).pressSet = s.pressSet := rfl
@[simp] theorem fifoPush_releaseSet : (fifoPush w s).releaseSet = s.releaseSet := rfl
@[simp] theorem fifoPush_released : (fifoPush w s).released = s.released := rfl
@[simp] theorem fifoPush_failed : (fifoPush w s).failed = s.failed := rfl
@[simp] theorem fifoPush_errval : (fifoPush w s).errval = s.errval := rfl
@[simp] theorem fifoPush_seq : (fifoPush w s).seq = s.seq := rfl
@[simp] theorem fifoPush_sckOut : (fifoPush w s).sckOut = s.sckOut := rfl
@[simp] theorem fifoPush_sckOe : (fifoPush w s).sckOe = s.sckOe := rfl
@[simp] theorem fifoPush_fifo : (fifoPush w s).fifo = s.fifo ++ [w] := rfl
@[simp] theorem fifoPush_eRun : (fifoPush w s).eRun = s.eRun := rfl
@[simp] theorem fifoPush_eSeq : (fifoPush w s).eSeq = s.eSeq := rfl
@[simp] theorem fifoPush_eBit : (fifoPush w s).eBit = s.eBit := rfl
@[simp] theorem fifoPush_eAcc : (fifoPush w s).eAcc = s.eAcc := rfl
@[simp] theorem fifoPush_evPort : (fifoPush w s).evPort = s.evPort := rfl
@[simp] theorem fifoPush_host : (fifoPush w s).host = s.host := rfl
@[simp] theorem fifoPush_turns : (fifoPush w s).turns = s.turns := rfl
@[simp] theorem fifoPush_device : (fifoPush w s).device = s.device := rfl
@[simp] theorem fifoPush_draws : (fifoPush w s).draws = s.draws := rfl
@[simp] theorem fifoPush_trace : (fifoPush w s).trace = s.trace := rfl
@[simp] theorem fifoPush_rspLog : (fifoPush w s).rspLog = s.rspLog := rfl
@[simp] theorem fifoPush_evLog : (fifoPush w s).evLog = s.evLog := rfl
@[simp] theorem fifoPush_sckUnset : (fifoPush w s).sckUnset = s.sckUnset := rfl
@[simp] theorem fifoPush_sdoIn : (fifoPush w s).sdoIn = s.sdoIn := rfl
end fifoPush

section fifoFlush
variable (s : State)
@[simp] theorem fifoFlush_plat : (fifoFlush s).plat = s.plat := rfl
@[simp] theorem fifoFlush_mode : (fifoFlush s).mode = s.mode := rfl
@[simp] theorem fifoFlush_pol : (fifoFlush s).pol = s.pol := rfl
@[simp] theorem fifoFlush_backend : (fifoFlush s).backend = s.backend := rfl
@[simp] theorem fifoFlush_cur : (fifoFlush s).cur = s.cur := rfl
@[simp] theorem fifoFlush_prev : (fifoFlush s).prev = s.prev := rfl
@[simp] theorem fifoFlush_acc : (fifoFlush s).acc = s.acc := rfl
@[simp] theorem fifoFlush_pressSet : (fifoFlush s).pressSet = s.pressSet := rfl
@[simp] theorem fifoFlush_releaseSet : (fifoFlush s).releaseSet = s.releaseSet := rfl
@[simp] theorem fifoFlush_released : (fifoFlush s).released = s.released := rfl
@[simp] theorem fifoFlush_failed : (fifoFlush s).failed = s.failed := rfl
@[simp] theorem fifoFlush_errval : (fifoFlush s).errval = s.errval := rfl
@[simp] theorem fifoFlush_seq : (fifoFlush s).seq = s.seq := rfl
@[simp] theorem fifoFlush_sckOut : (fifoFlush s).sckOut = s.sckOut := rfl
@[simp] theorem fifoFlush_sckOe : (fifoFlush s).sckOe = s.sckOe := rfl
@[simp] theorem fifoFlush_fifo : (fifoFlush s).fifo = [] := rfl
@[simp] theorem fifoFlush_eRun : (fifoFlush s).eRun = s.eRun := rfl
@[simp] theorem fifoFlush_eSeq : (fifoFlush s).eSeq = s.eSeq := rfl
@[simp] theorem fifoFlush_eBit : (fifoFlush s).eBit = s.eBit := rfl
@[simp] theorem fifoFlush_eAcc : (fifoFlush s).eAcc = s.eAcc := rfl
@[simp] theorem fifoFlush_evPort : (fifoFlush s).evPort = s.evPort := rfl
@[simp] theorem fifoFlush_host : (fifoFlush s).host = s.host := rfl
@[simp] theorem fifoFlush_turns : (fifoFlush s).turns = s.turns := rfl
@[simp] theorem fifoFlush_device : (fifoFlush s).device = s.device := rfl
@[simp] theorem fifoFlush_draws : (fifoFlush s).draws = s.draws := rfl
@[simp] theorem fifoFlush_trace : (fifoFlush s).trace = s.trace := rfl
@[simp] theorem fifoFlush_rspLog : (fifoFlush s).rspLog = s.rspLog := rfl
@[simp] theorem fifoFlush_evLog : (fifoFlush s).evLog = s.evLog := rfl
@[simp] theorem fifoFlush_sckUnset : (fifoFlush s).sckUnset = s.sckUnset := rfl
@[simp] theorem fifoFlush_sdoIn : (fifoFlush s).sdoIn = s.sdoIn := rfl
end fifoFlush

section putResponse
variable (r : RspWord) (s : State)
@[simp] theorem putResponse_plat : (putResponse r s).plat = s.plat := rfl
@[simp] theorem putResponse_mode : (putResponse r s).mode = s.mode := rfl
@[simp] theorem putResponse_pol : (putResponse r s).pol = s.pol := rfl
@[simp] theorem putResponse_backend : (putResponse r s).backend = s.backend := rfl
@[simp] theorem putResponse_cur : (putResponse r s).cur = s.cur := rfl
@[simp] theorem putResponse_prev : (putResponse r s).prev = s.prev := rfl
@[simp] theorem putResponse_acc : (putResponse r s).acc = s.acc := rfl
@[simp] theorem putResponse_pressSet : (putResponse r s).pressSet = s.pressSet := rfl
@[simp] theorem putResponse_releaseSet : (putResponse r s).releaseSet = s.releaseSet := rfl
@[simp] theorem putResponse_released : (putResponse r s).released = s.released := rfl
@[simp] theorem putResponse_failed : (putResponse r s).failed = s.failed := rfl
@[simp] theorem putResponse_errval : (putResponse r s).errval = s.errval := rfl
@[simp] theorem putResponse_seq : (putResponse r s).seq = s.seq := rfl
@[simp] theorem putResponse_sckOut : (putResponse r s).sckOut = s.sckOut := rfl
@[simp] theorem putResponse_sckOe : (putResponse r s).sckOe = s.sckOe := rfl
@[simp] theorem putResponse_fifo : (putResponse r s).fifo = s.fifo := rfl
@[simp] theorem putResponse_eRun : (putResponse r s).eRun = s.eRun := rfl
@[simp] theorem putResponse_eSeq : (putResponse r s).eSeq = s.eSeq := rfl
@[simp] theorem putResponse_eBit : (putResponse r s).eBit = s.eBit := rfl
@[simp] theorem putResponse_eAcc : (putResponse r s).eAcc = s.eAcc := rfl
@[simp] theorem putResponse_evPort : (putResponse r s).evPort = s.evPort := rfl
@[simp] theorem putResponse_host : (putResponse r s).host = s.host := rfl
@[simp] theorem putResponse_turns : (putResponse r s).turns = s.turns := rfl
@[simp] theorem putResponse_device : (putResponse r s).device = s.device := rfl
@[simp] theorem putResponse_draws : (putResponse r s).draws = s.draws := rfl
@[simp] theorem putResponse_trace : (putResponse r s).trace = s.trace := rfl
@[simp] theorem putResponse_rspLog : (putResponse r s).rspLog = s.rspLog ++ [r] := rfl
@[simp] theorem putResponse_evLog : (putResponse r s).evLog = s.evLog := rfl
@[simp] theorem putResponse_sckUnset : (putResponse r s).sckUnset = s.sckUnset := rfl
@[simp] theorem putResponse_sdoIn : (putResponse r s).sdoIn = s.sdoIn := rfl
end putResponse

section respond
variable (st : Status) (d : Word) (s : State)
@[simp] theorem respond_plat : (respond st d s).plat = s.plat := rfl
@[simp] theorem respond_mode : (respond st d s).mode = s.mode := rfl
@[simp] theorem respond_pol : (respond st d s).pol = s.pol := rfl
@[simp] theorem respond_backend : (respond st d s).backend = s.backend := rfl
@[simp] theorem respond_cur : (respond st d s).cur = s.cur := rfl
@[simp] theorem respond_prev : (respond st d s).prev = s.prev := rfl
@[simp] theorem respond_acc : (respond st d s).acc = s.acc := rfl
@[simp] theorem respond_pressSet : (respond st d s).pressSet = s.pressSet := rfl
@[simp] theorem respond_releaseSet : (respond st d s).releaseSet = s.releaseSet := rfl
@[simp] theorem respond_released : (respond st d s).released = s.released := rfl
@[simp] theorem respond_failed : (respond st d s).failed = s.failed := rfl
@[simp] theorem respond_errval : (respond st d s).errval = s.errval := rfl
@[simp] theorem respond_seq : (respond st d s).seq = seqAfterRespond s.seq := rfl
@[simp] theorem respond_sckOut : (respond st d s).sckOut = s.sckOut := rfl
@[simp] theorem respond_sckOe : (respond st d s).sckOe = s.sckOe := rfl
@[simp] theorem respond_fifo : (respond st d s).fifo = s.fifo := rfl
@[simp] theorem respond_eRun : (respond st d s).eRun = s.eRun := rfl
@[simp] theorem respond_eSeq : (respond st d s).eSeq = s.eSeq := rfl
@[simp] theorem respond_eBit : (respond st d s).eBit = s.eBit := rfl
@[simp] theorem respond_eAcc : (respond st d s).eAcc = s.eAcc := rfl
@[simp] theorem respond_evPort : (respond st d s).evPort = s.evPort := rfl
@[simp] theorem respond_host : (respond st d s).host = s.host := rfl
@[simp] theorem respond_turns : (respond st d s).turns = s.turns := rfl
@[simp] theorem respond_device : (respond st d s).device = s.device := rfl
@[simp] theorem respond_draws : (respond st d s).draws = s.draws := rfl
@[simp] theorem respond_trace : (respond st d s).trace = s.trace := rfl
@[simp] theorem respond_rspLog : (respond st d s).rspLog = s.rspLog ++ [rspWord st d] := rfl
@[simp] theorem respond_evLog : (respond st d s).evLog = s.evLog := rfl
@[simp] theorem respond_sckUnset : (respond st d s).sckUnset = s.sckUnset := rfl
@[simp] theorem respond_sdoIn : (respond st d s).sdoIn = s.sdoIn := rfl
end respond

section raiseFault
variable (f : CmdFault) (s : State)
@[simp] theorem raiseFault_plat : (raiseFault f s).plat = s.plat := rfl
@[simp] theorem raiseFault_mode : (raiseFault f s).mode = s.mode := rfl
@[simp] theorem raiseFault_pol : (raiseFault f s).pol = s.pol := rfl
@[simp] theorem raiseFault_backend : (raiseFault f s).backend = s.backend := rfl
@[simp] theorem raiseFault_cur : (raiseFault f s).cur = s.cur := rfl
@[simp] theorem raiseFault_prev : (raiseFault f s).prev = s.prev := rfl
@[simp] theorem raiseFault_acc : (raiseFault f s).acc = s.acc := rfl
@[simp] theorem raiseFault_pressSet : (raiseFault f s).pressSet = s.pressSet := rfl
@[simp] theorem raiseFault_releaseSet : (raiseFault f s).releaseSet = s.releaseSet := rfl
@[simp] theorem raiseFault_released : (raiseFault f s).released = s.released := rfl
@[simp] theorem raiseFault_failed : (raiseFault f s).failed = s.failed := rfl
@[simp] theorem raiseFault_errval : (raiseFault f s).errval = s.errval := rfl
@[simp] theorem raiseFault_seq : (raiseFault f s).seq = s.seq := rfl
@[simp] theorem raiseFault_sckOut : (raiseFault f s).sckOut = s.sckOut := rfl
@[simp] theorem raiseFault_sckOe : (raiseFault f s).sckOe = s.sckOe := rfl
@[simp] theorem raiseFault_fifo : (raiseFault f s).fifo = s.fifo := rfl
@[simp] theorem raiseFault_eRun : (raiseFault f s).eRun = s.eRun := rfl
@[simp] theorem raiseFault_eSeq : (raiseFault f s).eSeq = s.eSeq := rfl
@[simp] theorem raiseFault_eBit : (raiseFault f s).eBit = s.eBit := rfl
@[simp] theorem raiseFault_eAcc : (raiseFault f s).eAcc = s.eAcc := rfl
@[simp] theorem raiseFault_evPort : (raiseFault f s).evPort = s.evPort := rfl
@[simp] theorem raiseFault_host : (raiseFault f s).host = s.host := rfl
@[simp] theorem raiseFault_turns : (raiseFault f s).turns = s.turns := rfl
@[simp] theorem raiseFault_device : (raiseFault f s).device = s.device := rfl
@[simp] theorem raiseFault_draws : (raiseFault f s).draws = s.draws := rfl
@[simp] theorem raiseFault_trace : (raiseFault f s).trace = s.trace := rfl
@[simp] theorem raiseFault_rspLog : (raiseFault f s).rspLog = s.rspLog ++ [faultWord f s] := rfl
@[simp] theorem raiseFault_evLog : (raiseFault f s).evLog = s.evLog := rfl
@[simp] theorem raiseFault_sckUnset : (raiseFault f s).sckUnset = s.sckUnset := rfl
@[simp] theorem raiseFault_sdoIn : (raiseFault f s).sdoIn = s.sdoIn := rfl
end raiseFault

section emitEvent
variable (k : EvKind) (i : Nat) (s : State)
@[simp] theorem emitEvent_plat : (emitEvent k i s).plat = s.plat := rfl
@[simp] theorem emitEvent_mode : (emitEvent k i s).mode = s.mode := rfl
@[simp] theorem emitEvent_pol : (emitEvent k i s).pol = s.pol := rfl
@[simp] theorem emitEvent_backend : (emitEvent k i s).backend = s.backend := rfl
@[simp] theorem emitEvent_cur : (emitEvent k i s).cur = s.cur := rfl
@[simp] theorem emitEvent_prev : (emitEvent k i s).prev = s.prev := rfl
@[simp] theorem emitEvent_acc : (emitEvent k i s).acc = s.acc := rfl
@[simp] theorem emitEvent_pressSet : (emitEvent k i s).pressSet = s.pressSet := rfl
@[simp] theorem emitEvent_releaseSet : (emitEvent k i s).releaseSet = s.releaseSet := rfl
@[simp] theorem emitEvent_released : (emitEvent k i s).released = s.released := rfl
@[simp] theorem emitEvent_failed : (emitEvent k i s).failed = s.failed := rfl
@[simp] theorem emitEvent_errval : (emitEvent k i s).errval = s.errval := rfl
@[simp] theorem emitEvent_seq : (emitEvent k i s).seq = .evwait i := rfl
@[simp] theorem emitEvent_sckOut : (emitEvent k i s).sckOut = s.sckOut := rfl
@[simp] theorem emitEvent_sckOe : (emitEvent k i s).sckOe = s.sckOe := rfl
@[simp] theorem emitEvent_fifo : (emitEvent k i s).fifo = s.fifo := rfl
@[simp] theorem emitEvent_eRun : (emitEvent k i s).eRun = s.eRun := rfl
@[simp] theorem emitEvent_eSeq : (emitEvent k i s).eSeq = s.eSeq := rfl
@[simp] theorem emitEvent_eBit : (emitEvent k i s).eBit = s.eBit := rfl
@[simp] theorem emitEvent_eAcc : (emitEvent k i s).eAcc = s.eAcc := rfl
@[simp] theorem emitEvent_evPort : (emitEvent k i s).evPort = some (evWord k i) := rfl
@[simp] theorem emitEvent_host : (emitEvent k i s).host = s.host := rfl
@[simp] theorem emitEvent_turns : (emitEvent k i s).turns = s.turns := rfl
@[simp] theorem emitEvent_device : (emitEvent k i s).device = s.device := rfl
@[simp] theorem emitEvent_draws : (emitEvent k i s).draws = s.draws := rfl
@[simp] theorem emitEvent_trace : (emitEvent k i s).trace = s.trace := rfl
@[simp] theorem emitEvent_rspLog : (emitEvent k i s).rspLog = s.rspLog := rfl
@[simp] theorem emitEvent_evLog : (emitEvent k i s).evLog = s.evLog ++ [evWord k i] := rfl
@[simp] theorem emitEvent_sckUnset : (emitEvent k i s).sckUnset = s.sckUnset := rfl
@[simp] theorem emitEvent_sdoIn : (emitEvent k i s).sdoIn = s.sdoIn := rfl
end emitEvent

section acknowledge
variable (i : Nat) (s : State)
@[simp] theorem acknowledge_plat : (acknowledge i s).plat = s.plat := rfl
@[simp] theorem acknowledge_mode : (acknowledge i s).mode = s.mode := rfl
@[simp] theorem acknowledge_pol : (acknowledge i s).pol = s.pol := rfl
@[simp] theorem acknowledge_backend : (acknowledge i s).backend = s.backend := rfl
@[simp] theorem acknowledge_cur : (acknowledge i s).cur = s.cur := rfl
@[simp] theorem acknowledge_prev : (acknowledge i s).prev = s.prev := rfl
@[simp] theorem acknowledge_acc : (acknowledge i s).acc = s.acc := rfl
@[simp] theorem acknowledge_pressSet : (acknowledge i s).pressSet = s.pressSet := rfl
@[simp] theorem acknowledge_releaseSet : (acknowledge i s).releaseSet = s.releaseSet := rfl
@[simp] theorem acknowledge_released : (acknowledge i s).released = s.released := rfl
@[simp] theorem acknowledge_failed : (acknowledge i s).failed = s.failed := rfl
@[simp] theorem acknowledge_errval : (acknowledge i s).errval = s.errval := rfl
@[simp] theorem acknowledge_seq : (acknowledge i s).seq = .scan (i + 1) := rfl
@[simp] theorem acknowledge_sckOut : (acknowledge i s).sckOut = s.sckOut := rfl
@[simp] theorem acknowledge_sckOe : (acknowledge i s).sckOe = s.sckOe := rfl
@[simp] theorem acknowledge_fifo : (acknowledge i s).fifo = s.fifo := rfl
@[simp] theorem acknowledge_eRun : (acknowledge i s).eRun = s.eRun := rfl
@[simp] theorem acknowledge_eSeq : (acknowledge i s).eSeq = s.eSeq := rfl
@[simp] theorem acknowledge_eBit : (acknowledge i s).eBit = s.eBit := rfl
@[simp] theorem acknowledge_eAcc : (acknowledge i s).eAcc = s.eAcc := rfl
@[simp] theorem acknowledge_evPort : (acknowledge i s).evPort = none := rfl
@[simp] theorem acknowledge_host : (acknowledge i s).host = s.host := rfl
@[simp] theorem acknowledge_turns : (acknowledge i s).turns = s.turns := rfl
@[simp] theorem acknowledge_device : (acknowledge i s).device = s.device := rfl
@[simp] theorem acknowledge_draws : (acknowledge i s).draws = s.draws := rfl
@[simp] theorem acknowledge_trace : (acknowledge i s).trace = s.trace := rfl
@[simp] theorem acknowledge_rspLog : (acknowledge i s).rspLog = s.rspLog := rfl
@[simp] theorem acknowledge_evLog : (acknowledge i s).evLog = s.evLog := rfl
@[simp] theorem acknowledge_sckUnset : (acknowledge i s).sckUnset = s.sckUnset := rfl
@[simp] theorem acknowledge_sdoIn : (acknowledge i s).sdoIn = s.sdoIn := rfl
end acknowledge

section setPressFlag
variable (en : Bool) (s : State)
@[simp] theorem setPressFlag_plat : (setPressFlag en s).plat = s.plat := rfl
@[simp] theorem setPressFlag_mode : (setPressFlag en s).mode = s.mode := rfl
@[simp] theorem setPressFlag_pol : (setPressFlag en s).pol = s.pol := rfl
@[simp] theorem setPressFlag_backend : (setPressFlag en s).backend = s.backend := rfl
@[simp] theorem setPressFlag_cur : (setPressFlag en s).cur = s.cur := rfl
@[simp] theorem setPressFlag_prev : (setPressFlag en s).prev = s.prev := rfl
@[simp] theorem setPressFlag_acc : (setPressFlag en s).acc = s.acc := rfl
@[simp] theorem setPressFlag_pressSet : (setPressFlag en s).pressSet = en := rfl
@[simp] theorem setPressFlag_releaseSet : (setPressFlag en s).releaseSet = s.releaseSet := rfl
@[simp] theorem setPressFlag_released : (setPressFlag en s).released = s.released := rfl
@[simp] theorem setPressFlag_failed : (setPressFlag en s).failed = s.failed := rfl
@[simp] theorem setPressFlag_errval : (setPressFlag en s).errval = s.errval := rfl
@[simp] theorem setPressFlag_seq : (setPressFlag en s).seq = s.seq := rfl
@[simp] theorem setPressFlag_sckOut : (setPressFlag en s).sckOut = s.sckOut := rfl
@[simp] theorem setPressFlag_sckOe : (setPressFlag en s).sckOe = s.sckOe := rfl
@[simp] theorem setPressFlag_fifo : (setPressFlag en s).fifo = s.fifo := rfl
@[simp] theorem setPressFlag_eRun : (setPressFlag en s).eRun = s.eRun := rfl
@[simp] theorem setPressFlag_eSeq : (setPressFlag en s).eSeq = s.eSeq := rfl
@[simp] theorem setPressFlag_eBit : (setPressFlag en s).eBit = s.eBit := rfl
@[simp] theorem setPressFlag_eAcc : (setPressFlag en s).eAcc = s.eAcc := rfl
@[simp] theorem setPressFlag_evPort : (setPressFlag en s).evPort = s.evPort := rfl
@[simp] theorem setPressFlag_host : (setPressFlag en s).host = s.host := rfl
@[simp] theorem setPressFlag_turns : (setPressFlag en s).turns = s.turns := rfl
@[simp] theorem setPressFlag_device : (setPressFlag en s).device = s.device := rfl
@[simp] theorem setPressFlag_draws : (setPressFlag en s).draws = s.draws := rfl
@[simp] theorem setPressFlag_trace : (setPressFlag en s).trace = s.trace := rfl
@[simp] theorem setPressFlag_rspLog : (setPressFlag en s).rspLog = s.rspLog := rfl
@[simp] theorem setPressFlag_evLog : (setPressFlag en s).evLog = s.evLog := rfl
@[simp] theorem setPressFlag_sckUnset : (setPressFlag en s).sckUnset = s.sckUnset := rfl
@[simp] theorem setPressFlag_sdoIn : (setPressFlag en s).sdoIn = s.sdoIn := rfl
end setPressFlag

section setReleaseFlag
variable (en : Bool) (s : State)
@[simp] theorem setReleaseFlag_plat : (setReleaseFlag en s).plat = s.plat := rfl
@[simp] theorem setReleaseFlag_mode : (setReleaseFlag en s).mode = s.mode := rfl
@[simp] theorem setReleaseFlag_pol : (setReleaseFlag en s).pol = s.pol := rfl
@[simp] theorem setReleaseFlag_backend : (setReleaseFlag en s).backend = s.backend := rfl
@[simp] theorem setReleaseFlag_cur : (setReleaseFlag en s).cur = s.cur := rfl
@[simp] theorem setReleaseFlag_prev : (setReleaseFlag en s).prev = s.prev := rfl
@[simp] theorem setReleaseFlag_acc : (setReleaseFlag en s).acc = s.acc := rfl
@[simp] theorem setReleaseFlag_pressSet : (setReleaseFlag en s).pressSet = s.pressSet := rfl
@[simp] theorem setReleaseFlag_releaseSet : (setReleaseFlag en s).releaseSet = en := rfl
@[simp] theorem setReleaseFlag_released : (setReleaseFlag en s).released = s.released := rfl
@[simp] theorem setReleaseFlag_failed : (setReleaseFlag en s).failed = s.failed := rfl
@[simp] theorem setReleaseFlag_errval : (setReleaseFlag en s).errval = s.errval := rfl
@[simp] theorem setReleaseFlag_seq : (setReleaseFlag en s).seq = s.seq := rfl
@[simp] theorem setReleaseFlag_sckOut : (setReleaseFlag en s).sckOut = s.sckOut := rfl
@[simp] theorem setReleaseFlag_sckOe : (setReleaseFlag en s).sckOe = s.sckOe := rfl
@[simp] theorem setReleaseFlag_fifo : (setReleaseFlag en s).fifo = s.fifo := rfl
@[simp] theorem setReleaseFlag_eRun : (setReleaseFlag en s).eRun = s.eRun := rfl
@[simp] theorem setReleaseFlag_eSeq : (setReleaseFlag en s).eSeq = s.eSeq := rfl
@[simp] theorem setReleaseFlag_eBit : (setReleaseFlag en s).eBit = s.eBit := rfl
@[simp] theorem setReleaseFlag_eAcc : (setReleaseFlag en s).eAcc = s.eAcc := rfl
@[simp] theorem setReleaseFlag_evPort : (setReleaseFlag en s).evPort = s.evPort := rfl
@[simp] theorem setReleaseFlag_host : (setReleaseFlag en s).host = s.host := rfl
@[simp] theorem setReleaseFlag_turns : (setReleaseFlag en s).turns = s.turns := rfl
@[simp] theorem setReleaseFlag_device : (setReleaseFlag en s).device = s.device := rfl
@[simp] theorem setReleaseFlag_draws : (setReleaseFlag en s).draws = s.draws := rfl
@[simp] theorem setReleaseFlag_trace : (setReleaseFlag en s).trace = s.trace := rfl
@[simp] theorem setReleaseFlag_rspLog : (setReleaseFlag en s).rspLog = s.rspLog := rfl
@[simp] theorem setReleaseFlag_evLog : (setReleaseFlag en s).evLog = s.evLog := rfl
@[simp] theorem setReleaseFlag_sckUnset : (setReleaseFlag en s).sckUnset = s.sckUnset := rfl
@[simp] theorem setReleaseFlag_sdoIn : (setReleaseFlag en s).sdoIn = s.sdoIn := rfl
end setReleaseFlag

section setReleasedFlag
variable (s : State)
@[simp] theorem setReleasedFlag_plat : (setReleasedFlag s).plat = s.plat := rfl
@[simp] theorem setReleasedFlag_mode : (setReleasedFlag s).mode = s.mode := rfl
@[simp] theorem setReleasedFlag_pol : (setReleasedFlag s).pol = s.pol := rfl
@[simp] theorem setReleasedFlag_backend : (setReleasedFlag s).backend = s.backend := rfl
@[simp] theorem setReleasedFlag_cur : (setReleasedFlag s).cur = s.cur := rfl
@[simp] theorem setReleasedFlag_prev : (setReleasedFlag s).prev = s.prev := rfl
@[simp] theorem setReleasedFlag_acc : (setReleasedFlag s).acc = s.acc := rfl
@[simp] theorem setReleasedFlag_pressSet : (setReleasedFlag s).pressSet = s.pressSet := rfl
@[simp] theorem setReleasedFlag_releaseSet : (setReleasedFlag s).releaseSet = s.releaseSet := rfl
@[simp] theorem setReleasedFlag_released : (setReleasedFlag s).released = true := rfl
@[simp] theorem setReleasedFlag_failed : (setReleasedFlag s).failed = s.failed := rfl
@[simp] theorem setReleasedFlag_errval : (setReleasedFlag s).errval = s.errval := rfl
@[simp] theorem setReleasedFlag_seq : (setReleasedFlag s).seq = s.seq := rfl
@[simp] theorem setReleasedFlag_sckOut : (setReleasedFlag s).sckOut = s.sckOut := rfl
@[simp] theorem setReleasedFlag_sckOe : (setReleasedFlag s).sckOe = s.sckOe := rfl
@[simp] theorem setReleasedFlag_fifo : (setReleasedFlag s).fifo = s.fifo := rfl
@[simp] theorem setReleasedFlag_eRun : (setReleasedFlag s).eRun = s.eRun := rfl
@[simp] theorem setReleasedFlag_eSeq : (setReleasedFlag s).eSeq = s.eSeq := rfl
@[simp] theorem setReleasedFlag_eBit : (setReleasedFlag s).eBit = s.eBit := rfl
@[simp] theorem setReleasedFlag_eAcc : (setReleasedFlag s).eAcc = s.eAcc := rfl
@[simp] theorem setReleasedFlag_evPort : (setReleasedFlag s).evPort = s.evPort := rfl
@[simp] theorem setReleasedFlag_host : (setReleasedFlag s).host = s.host := rfl
@[simp] theorem setReleasedFlag_turns : (setReleasedFlag s).turns = s.turns := rfl
@[simp] theorem setReleasedFlag_device : (setReleasedFlag s).device = s.device := rfl
@[simp] theorem setReleasedFlag_draws : (setReleasedFlag s).draws = s.draws := rfl
@[simp] theorem setReleasedFlag_trace : (setReleasedFlag s).trace = s.trace := rfl
@[simp] theorem setReleasedFlag_rspLog : (setReleasedFlag s).rspLog = s.rspLog := rfl
@[simp] theorem setReleasedFlag_evLog : (setReleasedFlag s).evLog = s.evLog := rfl
@[simp] theorem setReleasedFlag_sckUnset : (setReleasedFlag s).sckUnset = s.sckUnset := rfl
@[simp] theorem setReleasedFlag_sdoIn : (setReleasedFlag s).sdoIn = s.sdoIn := rfl
end setReleasedFlag

section stopEngine
variable (s : State)
@[simp] theorem stopEngine_plat : (stopEngine s).plat = s.plat := rfl
@[simp] theorem stopEngine_mode : (stopEngine s).mode = s.mode := rfl
@[simp] theorem stopEngine_pol : (stopEngine s).pol = s.pol := rfl
@[simp] theorem stopEngine_backend : (stopEngine s).backend = s.backend := rfl
@[simp] theorem stopEngine_cur : (stopEngine s).cur = s.cur := rfl
@[simp] theorem stopEngine_prev : (stopEngine s).prev = s.prev := rfl
@[simp] theorem stopEngine_acc : (stopEngine s).acc = s.acc := rfl
@[simp] theorem stopEngine_pressSet : (stopEngine s).pressSet = s.pressSet := rfl
@[simp] theorem stopEngine_releaseSet : (stopEngine s).releaseSet = s.releaseSet := rfl
@[simp] theorem stopEngine_released : (stopEngine s).released = s.released := rfl
@[simp] theorem stopEngine_failed : (stopEngine s).failed = s.failed := rfl
@[simp] theorem stopEngine_errval : (stopEngine s).errval = s.errval := rfl
@[simp] theorem stopEngine_seq : (stopEngine s).seq = s.seq := rfl
@[simp] theorem stopEngine_sckOut : (stopEngine s).sckOut = s.sckOut := rfl
@[simp] theorem stopEngine_sckOe : (stopEngine s).sckOe = s.sckOe := rfl
@[simp] theorem stopEngine_fifo : (stopEngine s).fifo = s.fifo := rfl
@[simp] theorem stopEngine_eRun : (stopEngine s).eRun = false := rfl
@[simp] theorem stopEngine_eSeq : (stopEngine s).eSeq = s.eSeq := rfl
@[simp] theorem stopEngine_eBit : (stopEngine s).eBit = s.eBit := rfl
@[simp] theorem stopEngine_eAcc : (stopEngine s).eAcc = s.eAcc := rfl
@[simp] theorem stopEngine_evPort : (stopEngine s).evPort = s.evPort := rfl
@[simp] theorem stopEngine_host : (stopEngine s).host = s.host := rfl
@[simp] theorem stopEngine_turns : (stopEngine s).turns = s.turns := rfl
@[simp] theorem stopEngine_device : (stopEngine s).device = s.device := rfl
@[simp] theorem stopEngine_draws : (stopEngine s).draws = s.draws := rfl
@[simp] theorem stopEngine_trace : (stopEngine s).trace = s.trace := rfl
@[simp] theorem stopEngine_rspLog : (stopEngine s).rspLog = s.rspLog := rfl
@[simp] theorem stopEngine_evLog : (stopEngine s).evLog = s.evLog := rfl
@[simp] theorem stopEngine_sckUnset : (stopEngine s).sckUnset = s.sckUnset := rfl
@[simp] theorem stopEngine_sdoIn : (stopEngine s).sdoIn = s.sdoIn := rfl
end stopEngine

section gotoEngine
variable (p : EnginePos) (s : State)
@[simp] theorem gotoEngine_plat : (gotoEngine p s).plat = s.plat := rfl
@[simp] theorem gotoEngine_mode : (gotoEngine p s).mode = s.mode := rfl
@[simp] theorem gotoEngine_pol : (gotoEngine p s).pol = s.pol := rfl
@[simp] theorem gotoEngine_backend : (gotoEngine p s).backend = s.backend := rfl
@[simp] theorem gotoEngine_cur : (gotoEngine p s).cur = s.cur := rfl
@[simp] theorem gotoEngine_prev : (gotoEngine p s).prev = s.prev := rfl
@[simp] theorem gotoEngine_acc : (gotoEngine p s).acc = s.acc := rfl
@[simp] theorem gotoEngine_pressSet : (gotoEngine p s).pressSet = s.pressSet := rfl
@[simp] theorem gotoEngine_releaseSet : (gotoEngine p s).releaseSet = s.releaseSet := rfl
@[simp] theorem gotoEngine_released : (gotoEngine p s).released = s.released := rfl
@[simp] theorem gotoEngine_failed : (gotoEngine p s).failed = s.failed := rfl
@[simp] theorem gotoEngine_errval : (gotoEngine p s).errval = s.errval := rfl
@[simp] theorem gotoEngine_seq : (gotoEngine p s).seq = s.seq := rfl
@[simp] theorem gotoEngine_sckOut : (gotoEngine p s).sckOut = s.sckOut := rfl
@[simp] theorem gotoEngine_sckOe : (gotoEngine p s).sckOe = s.sckOe := rfl
@[simp] theorem gotoEngine_fifo : (gotoEngine p s).fifo = s.fifo := rfl
@[simp] theorem gotoEngine_eRun : (gotoEngine p s).eRun = s.eRun := rfl
@[simp] theorem gotoEngine_eSeq : (gotoEngine p s).eSeq = p := rfl
@[simp] theorem gotoEngine_eBit : (gotoEngine p s).eBit = s.eBit := rfl
@[simp] theorem gotoEngine_eAcc : (gotoEngine p s).eAcc = s.eAcc := rfl
@[simp] theorem gotoEngine_evPort : (gotoEngine p s).evPort = s.evPort := rfl
@[simp] theorem gotoEngine_host : (gotoEngine p s).host = s.host := rfl
@[simp] theorem gotoEngine_turns : (gotoEngine p s).turns = s.turns := rfl
@[simp] theorem gotoEngine_device : (gotoEngine p s).device = s.device := rfl
@[simp] theorem gotoEngine_draws : (gotoEngine p s).draws = s.draws := rfl
@[simp] theorem gotoEngine_trace : (gotoEngine p s).trace = s.trace := rfl
@[simp] theorem gotoEngine_rspLog : (gotoEngine p s).rspLog = s.rspLog := rfl
@[simp] theorem gotoEngine_evLog : (gotoEngine p s).evLog = s.evLog := rfl
@[simp] theorem gotoEngine_sckUnset : (gotoEngine p s).sckUnset = s.sckUnset := rfl
@[simp] theorem gotoEngine_sdoIn : (gotoEngine p s).sdoIn = s.sdoIn := rfl
end gotoEngine

end Sys2Proof.Machine
end

