-- ==== Sys2Proof/Laws/Ops.lean ====
section
/-! SUPPORT. One lemma for each shared operation that says everything it can answer. -/

namespace Sys2Proof.Machine

/-! ### Sequencing -/

@[simp] theorem andThen_next {α β : Type} (a : α) (k : α → Host.Outcome β Fault Refusal) :
    andThen (.next a) k = k a := rfl

@[simp] theorem andThen_fault {α β : Type} (f : Fault) (k : α → Host.Outcome β Fault Refusal) :
    andThen (.fault f) k = .fault f := rfl

@[simp] theorem andThen_refused {α β : Type} (e : Refusal) (k : α → Host.Outcome β Fault Refusal) :
    andThen (.refused e) k = .refused e := rfl

/-- A sequence answers next exactly when both parts do. -/
theorem andThen_eq_next {α β : Type} {r : Host.Outcome α Fault Refusal} {k : α → Host.Outcome β Fault Refusal} {b : β} :
    andThen r k = .next b ↔ ∃ a, r = .next a ∧ k a = .next b := by
  cases r <;> simp [andThen]

/-- A sequence faults when one of its parts does. -/
theorem andThen_eq_fault {α β : Type} {r : Host.Outcome α Fault Refusal} {k : α → Host.Outcome β Fault Refusal} {f : Fault} :
    andThen r k = .fault f ↔ r = .fault f ∨ ∃ a, r = .next a ∧ k a = .fault f := by
  cases r <;> simp [andThen]

/-- A sequence is refused when one of its parts is. -/
theorem andThen_eq_refused {α β : Type} {r : Host.Outcome α Fault Refusal} {k : α → Host.Outcome β Fault Refusal}
    {e : Refusal} : andThen r k = .refused e ↔ r = .refused e ∨ ∃ a, r = .next a ∧ k a = .refused e := by
  cases r <;> simp [andThen]

/-! ### Lines -/

theorem lineWrite_eq_next {v : Level} {s t : State} :
    lineWrite v s = .next t ↔ s.sckOe = true ∧ t = driveSck v s := by
  cases h : s.sckOe <;> simp [lineWrite, h, @eq_comm _ t]

@[simp] theorem lineWrite_of_driven {v : Level} {s : State} (h : s.sckOe = true) :
    lineWrite v s = .next (driveSck v s) := by simp [lineWrite, h]

@[simp] theorem lineWrite_not_refused (v : Level) (s : State) (e : Refusal) : lineWrite v s ≠ .refused e := by
  unfold lineWrite
  split <;> simp

theorem lineWrite_eq_fault {v : Level} {s : State} {f : Fault} :
    lineWrite v s = .fault f ↔ s.sckOe = false ∧ f = .clockNotDriven := by
  cases h : s.sckOe <;> simp [lineWrite, h, @eq_comm _ f]

/-- A draw changes the device's list or the count of draws and nothing else. -/
theorem drawLevel_frame (s : State) :
    (drawLevel s).2 = { s with device := (drawLevel s).2.device, draws := (drawLevel s).2.draws } := by
  unfold drawLevel
  split <;> rfl

/-- The listed level comes first. -/
@[simp] theorem drawLevel_of_cons {s : State} {b : Level} {rest : List Level} (h : s.device = b :: rest) :
    drawLevel s = (b, { s with device := rest }) := by
  unfold drawLevel
  rw [h]

/-- Where no level is listed the level is free and the count of draws advances. -/
theorem drawLevel_of_nil {s : State} (h : s.device = []) :
    drawLevel s = (Config.sdoLevel s.plat.sdoPull s.trace s.draws, { s with draws := s.draws + 1 }) := by
  unfold drawLevel
  rw [h]

theorem lineRead_eq_next {s t : State} {b : Level} :
    lineRead s = .next (b, t) ↔ s.sdoIn = true ∧ b = (drawLevel s).1 ∧ t = recordRead b (drawLevel s).2 := by
  unfold lineRead
  split
  · simp_all only [Host.Outcome.next.injEq, Prod.mk.injEq, true_and]
    constructor
    · rintro ⟨rfl, rfl⟩; exact ⟨rfl, rfl⟩
    · rintro ⟨rfl, rfl⟩; exact ⟨rfl, rfl⟩
  · simp_all

@[simp] theorem lineRead_of_input {s : State} (h : s.sdoIn = true) :
    lineRead s = .next ((drawLevel s).1, recordRead (drawLevel s).1 (drawLevel s).2) := by simp [lineRead, h]

theorem lineRead_eq_fault {s : State} {f : Fault} :
    lineRead s = .fault f ↔ s.sdoIn = false ∧ f = .dataLineReleased := by
  cases h : s.sdoIn <;> simp [lineRead, h, @eq_comm _ f]

@[simp] theorem lineRead_not_refused (s : State) (e : Refusal) : lineRead s ≠ .refused e := by
  unfold lineRead
  split <;> simp

/-! ### Queue -/

theorem fifoPop_eq_next {s t : State} {w : Word} :
    fifoPop s = .next (w, t) ↔ ∃ rest, s.fifo = w :: rest ∧ t = { s with fifo := rest } := by
  unfold fifoPop
  split
  · rename_i w' rest h
    simp only [h, Host.Outcome.next.injEq, Prod.mk.injEq, List.cons.injEq]
    constructor
    · rintro ⟨rfl, rfl⟩; exact ⟨rest, ⟨rfl, rfl⟩, rfl⟩
    · rintro ⟨r, ⟨rfl, rfl⟩, rfl⟩; exact ⟨rfl, rfl⟩
  · rename_i h
    simp [h]

/-! ### What every command begins with -/

/-- The three ways a command can begin: the port is closed, the block has failed, or its body runs. -/
theorem command_cases (s : State) (body : State → Result) :
    (s.portOpen = false ∧ command s body = .refused .portClosed) ∨
    (s.portOpen = true ∧ s.failed = true ∧ command s body = .next (raiseFault .acquireFailed s)) ∨
    (s.portOpen = true ∧ s.failed = false ∧ command s body = body s) := by
  unfold command
  cases s.portOpen <;> cases s.failed <;> simp

@[simp] theorem command_of_open {s : State} (body : State → Result) (hp : s.portOpen = true) (hf : s.failed = false) :
    command s body = body s := by simp [command, hp, hf]

@[simp] theorem command_of_failed {s : State} (body : State → Result) (hp : s.portOpen = true) (hf : s.failed = true) :
    command s body = .next (raiseFault .acquireFailed s) := by simp [command, hp, hf]

@[simp] theorem command_of_closed {s : State} (body : State → Result) (hp : s.portOpen = false) :
    command s body = .refused .portClosed := by simp [command, hp]

/-- Where the port is open a response leaves the sequencer where it is. -/
theorem seqAfterRespond_of_open {s : State} (h : s.portOpen = true) : seqAfterRespond s.seq = s.seq := by
  cases hs : s.seq <;> simp_all [State.portOpen, SeqPos.accepts, seqAfterRespond]

/-- Where the port is open a response is the only effect of `Respond`. -/
theorem respond_of_open {s : State} (st : Status) (d : Word) (h : s.portOpen = true) :
    respond st d s = { s with rspLog := s.rspLog ++ [rspWord st d] } := by
  have := seqAfterRespond_of_open h
  simp only [respond, gotoSeq, putResponse, this]

/-- An open port that does not wait for an acknowledge is `READY`. -/
theorem ready_of_open_of_not_waiting {s : State} (ho : s.portOpen = true) (hw : s.waiting = false) : s.seq = .ready := by
  cases hs : s.seq <;> simp_all [State.portOpen, State.waiting, SeqPos.accepts, SeqPos.waits]

/-! ### The words of fault responses (60_exceptions.md R130 to R133) -/

@[simp] theorem faultWord_illegalCommand (s : State) : faultWord .illegalCommand s = 0x10000#19 := by
  simp [faultWord, rspWord, CmdFault.status, CmdFault.info, Status.code]

@[simp] theorem faultWord_useAfterRelease (s : State) : faultWord .useAfterRelease s = 0x20000#19 := by
  simp [faultWord, rspWord, CmdFault.status, CmdFault.info, Status.code]

@[simp] theorem faultWord_busy (s : State) : faultWord .busy s = 0x30000#19 := by
  simp [faultWord, rspWord, CmdFault.status, CmdFault.info, Status.code]

@[simp] theorem faultWord_acquireFailed (s : State) : faultWord .acquireFailed s = 4#3 ++ s.errval := rfl

/-- The status field of a response word is its status (30_encoding.md R62). -/
theorem rspWord_status (st : Status) (d : Word) : (rspWord st d).extractLsb' 16 3 = st.code := by
  apply BitVec.eq_of_getLsbD_eq
  intro i hi
  unfold rspWord
  rw [BitVec.getLsbD_extractLsb', BitVec.getLsbD_append]
  simp [hi]

/-! ### Single bits -/

theorem getLsbD_writeBit (w : Word) (i j : Nat) (b : Bool) (hi : i < 16) :
    (writeBit w i b).getLsbD j = if j = i then b else w.getLsbD j := by
  by_cases h : j = i
  · subst h
    cases b <;> simp [writeBit, hi]
  · have h' : ¬ i = j := fun e => h e.symm
    cases b
    · by_cases hj : j < 16
      · simp [writeBit, h, hj]
      · simp [writeBit, h, hj, BitVec.getLsbD_of_ge w j (by omega)]
    · simp [writeBit, h, h']

theorem getLsbD_bitData (b : Bool) (j : Nat) : (bitData b).getLsbD j = (decide (j = 0) && b) := by
  cases b <;> cases j <;> simp [bitData]

/-- Bit `i` of the word that levels make is level `i` (20_memory.md R46). -/
theorem getLsbD_sampleWord (bits : List Level) (i : Nat) (hi : i < 16) :
    (sampleWord bits).getLsbD i = bits[i]?.getD false := by
  induction bits generalizing i with
  | nil => simp [sampleWord]
  | cons b bs ih =>
    cases i with
    | zero => cases b <;> simp [sampleWord, bitData]
    | succ k =>
      have := ih k (by omega)
      simp [sampleWord, getLsbD_bitData, this]
      omega

end Sys2Proof.Machine
end

