-- ==== Sys2Proof/Safety.lean ====
section
/-! DEFINITION. The terms claims are stated in: the invariant of a safe state (10_state.md R31 and what the procedures keep), the
clock levels between steps, and the procedures' results as plain functions of what is read (40 R70, 41 R83, 42 R99). -/

namespace Sys2Proof.Safety

open Sys2Proof.Machine

/-- No bit of `w` at or above bit `n` is set: `w` is a word of `n` bits (R19, R38). -/
def narrow (n : Nat) (w : Word) : Bool := decide (w.toNat < 2 ^ n)

/-- The position is one of R25's, and clocking happens on the bit-bang backend only (R27, 41 R83). -/
def seqLegal (s : State) : Bool :=
  match s.seq with
  | .ready => true
  | .acq i .start => decide (i = 0) && decide (s.backend = .bitbang)
  | .acq i .rise => decide (i < s.n) && decide (s.backend = .bitbang)
  | .acq i .capt => decide (i < s.n) && decide (s.backend = .bitbang)
  | .acq i .fall => decide (i < s.n) && decide (s.backend = .bitbang)
  | .acq i .final => decide (i = s.n) && decide (s.backend = .bitbang)
  | .scan i => decide (i ≤ s.n)
  | .evwait i => decide (i < s.n)

/-- The event port holds a word exactly in `EVWAIT(i)`, and then the word of the change of bit `i` (42 R103, 46 R168). -/
def portLegal (s : State) : Bool :=
  match s.seq with
  | .ready => decide (s.evPort = none)
  | .acq _ _ => decide (s.evPort = none)
  | .scan _ => decide (s.evPort = none)
  | .evwait i => decide (s.evPort = (edge s.prev s.cur i).map (evWord · i)) && (edge s.prev s.cur i).isSome

/-- `PREV` = `CUR` in `READY` (R31 (d)) and while the next sample is being clocked. -/
def samplesSettled (s : State) : Bool :=
  match s.seq with
  | .ready => decide (s.prev = s.cur)
  | .acq _ _ => decide (s.prev = s.cur)
  | .scan _ => true
  | .evwait _ => true

/-- The block holds its resources: acquired at reset and not yet released (R23, R24). -/
def holding (s : State) : Bool := !s.failed && !s.released

/-- What every reachable state meets. -/
structure Inv (s : State) : Prop where
  /-- `FIFO_DEPTH` is at least 1 (00_scope.md R8). -/
  platform : s.plat.wellFormed = true
  /-- R31 (a). -/
  curNarrow : narrow s.n s.cur = true
  /-- R31 (a). -/
  prevNarrow : narrow s.n s.prev = true
  /-- R21. -/
  accNarrow : narrow s.n s.acc = true
  /-- R87. -/
  eAccNarrow : narrow s.n s.eAcc = true
  /-- R31 (e). -/
  fifoNarrow : s.fifo.all (narrow s.n) = true
  /-- R29. -/
  fifoBounded : s.fifo.length ≤ s.plat.fifoDepth
  /-- R30. -/
  eBitLegal : s.eBit < s.n
  /-- R25. -/
  seqLegal : seqLegal s = true
  /-- R103, R168. -/
  portLegal : portLegal s = true
  /-- R31 (d). -/
  settled : samplesSettled s = true
  /-- No `POLL` is in progress in a block that failed or has released (60 R137). -/
  quietUnlessHolding : holding s = false → s.seq = .ready
  /-- The block drives the clock exactly while it holds its resources (R32, 45 R122). -/
  clockDriven : s.sckOe = holding s
  /-- The block uses the data line exactly while it holds its resources (R36, R45). -/
  dataInput : s.sdoIn = holding s
  /-- The engine runs exactly on `HWASSIST` while the block holds its resources (R32, 41 R90, 45 R122). -/
  engineRuns : s.eRun = (s.backend.hasEngine && holding s)
  /-- Where the engine does not run the queue is empty (R29, 45 R122). -/
  queueWithEngine : s.eRun = false → s.fifo = []

/-- What the clock wire shows from reset until the first clock write: the level `SCK_RESET_LEVEL` names, or none, on `BITBANG`; `IDLE` on
`HWASSIST` (10_state.md R32, 41 R84). -/
def restWire (s : State) : Option Level :=
  if resetSckUnset s.plat.sckResetLevel s.backend then none
  else some (resetSckOut s.plat.sckResetLevel s.backend s.pol)

/-- What the wire may show at a position of the bit-bang sampler (40 R72 to R76): between polls it is as reset left it, or at `ACTIVE`,
where every acquisition leaves it. -/
def seqWires (s : State) : List (Option Level) :=
  match s.seq with
  | .ready => [restWire s, some s.active]
  | .acq _ .start => [restWire s, some s.active]
  | .acq _ .rise => [some s.idle]
  | .acq _ .capt => [some s.active]
  | .acq _ .fall => [some s.active]
  | .acq _ .final => [some s.idle]
  | .scan _ => [some s.active]
  | .evwait _ => [some s.active]

/-- What the wire may show at a position of the engine (41 R84 to R89): at `HOLD` it is as reset left it, or at the settle level. -/
def engineWires (s : State) : List (Option Level) :=
  match s.eSeq with
  | .hold => [restWire s, some (s.plat.settleLevel.level s.pol)]
  | .rise => [some s.idle]
  | .capt => [some s.active]
  | .fall => [some s.active]
  | .emit => [some s.idle]
  | .settle => [some s.idle]

/-- What the wire may show, by the agent that owns the pins (R27: the sequencer on `BITBANG`, the engine on `HWASSIST`). -/
def clockWires (s : State) : List (Option Level) :=
  match s.backend with
  | .bitbang => seqWires s
  | .hwassist => engineWires s

/-- While the block drives the clock the wire is at a level the procedure in progress has left on it. -/
structure ClockInv (s : State) : Prop where
  wire : s.sckOe = true → s.wire ∈ clockWires s

/-- `k` moves of one agent, stopping at the first stop. -/
def iterate (f : State → Result) : Nat → State → Result
  | 0, s => .next s
  | k + 1, s => andThen (f s) (iterate f k)

/-- One move of the dispatcher with a host whose handlers only return: an acknowledge in `EVWAIT(i)`, else the sequencer's step. -/
def promptStep (s : State) : Result :=
  match s.seq with
  | .ready => .next s
  | .acq _ _ => seqStep s
  | .scan _ => seqStep s
  | .evwait i => .next (acknowledge i s)

/-- One pulse a level: drive to active, read, drive to idle (40 R73 to R75, 41 R85, R86). -/
def pulses (active idle : Level) : List Level → List LineEvent
  | [] => []
  | b :: bs => .sck active :: .sdo b :: .sck idle :: pulses active idle bs

/-- The line trace of one `ACQ_BB` call that reads `bits` (40 R70, R79). -/
def acqTrace (active idle : Level) (bits : List Level) : List LineEvent :=
  .sck idle :: (pulses active idle bits ++ [.sck active])

/-- The line trace of one engine round that reads `bits` (41 R83). -/
def engineTrace (active idle settle : Level) (bits : List Level) : List LineEvent :=
  .sck idle :: (pulses active idle bits ++ [.sck settle])

/-- The levels written to the clock, in order. -/
def clockWrites (t : List LineEvent) : List Level :=
  t.filterMap fun e =>
    match e with
    | .sck v => some v
    | .sdo _ => none

/-- The levels read from the data line, in order. -/
def dataReads (t : List LineEvent) : List Level :=
  t.filterMap fun e =>
    match e with
    | .sck _ => none
    | .sdo b => some b

/-- The event words of one `DISPATCH` with constant presence bits, as a function of the pair of samples (42 R105). -/
def dispatchEvents (pressSet releaseSet : Bool) (prev cur : Word) (n : Nat) : List EvWord :=
  (List.range n).filterMap fun i => (edgeEvent pressSet releaseSet prev cur i).map (evWord · i)

/-- The status field of a response word (30_encoding.md R62). -/
def rspStatus (r : RspWord) : BitVec 3 := r.extractLsb' 16 3

/-- The channel index of an event word (R63). -/
def evIndex (e : EvWord) : Nat := (e.extractLsb' 0 4).toNat

/-- The host's next action is no reset. -/
def noReset (h : List HostAct) : Bool :=
  match h with
  | .reset _ :: _ => false
  | _ => true

end Sys2Proof.Safety
end

