-- ==== Sys2Proof/Laws/Moves.lean ====
section
/-! SUPPORT. Inversion lemmas: everything one move of each agent can answer. -/

namespace Sys2Proof.Machine

/-! ### The sequencer (46_operation_classes.md R168) -/

/-- Every next state of one acquisition step, row by row. -/
theorem acqStep_eq_next {i : Nat} {ph : Phase} {s t : State} (h : acqStep i ph s = .next t) :
    (ph = .start ∧ i = 0 ∧ s.sckOe = true ∧ t = gotoSeq (.acq 0 .rise) (driveSck s.idle { s with acc := 0 })) ∨
    (ph = .rise ∧ i < s.n ∧ s.sckOe = true ∧ t = gotoSeq (.acq i .capt) (driveSck s.active s)) ∨
    (ph = .capt ∧ i < s.n ∧ s.sdoIn = true ∧
      t = gotoSeq (.acq i .fall) { recordRead (drawLevel s).1 (drawLevel s).2 with
        acc := captureBit (recordRead (drawLevel s).1 (drawLevel s).2).acc i (drawLevel s).1 }) ∨
    (ph = .fall ∧ i < s.n ∧ s.sckOe = true ∧ t = gotoSeq (afterFall i s.n) (driveSck s.idle s)) ∨
    (ph = .final ∧ i = s.n ∧ s.sckOe = true ∧
      t = gotoSeq (.scan 0) { driveSck s.active s with cur := (driveSck s.active s).acc }) := by
  cases ph <;> simp only [acqStep] at h <;> split at h <;> try contradiction
  · obtain ⟨a, ha, hb⟩ := andThen_eq_next.1 h
    obtain ⟨ho, rfl⟩ := lineWrite_eq_next.1 ha
    simp only [Host.Outcome.next.injEq] at hb
    exact .inl ⟨rfl, ‹_›, ho, hb.symm⟩
  · obtain ⟨a, ha, hb⟩ := andThen_eq_next.1 h
    obtain ⟨ho, rfl⟩ := lineWrite_eq_next.1 ha
    simp only [Host.Outcome.next.injEq] at hb
    exact .inr (.inl ⟨rfl, ‹_›, ho, hb.symm⟩)
  · obtain ⟨⟨b, a⟩, ha, hb⟩ := andThen_eq_next.1 h
    obtain ⟨ho, rfl, rfl⟩ := lineRead_eq_next.1 ha
    simp only [Host.Outcome.next.injEq] at hb
    exact .inr (.inr (.inl ⟨rfl, ‹_›, ho, hb.symm⟩))
  · obtain ⟨a, ha, hb⟩ := andThen_eq_next.1 h
    obtain ⟨ho, rfl⟩ := lineWrite_eq_next.1 ha
    simp only [Host.Outcome.next.injEq] at hb
    exact .inr (.inr (.inr (.inl ⟨rfl, ‹_›, ho, hb.symm⟩)))
  · obtain ⟨a, ha, hb⟩ := andThen_eq_next.1 h
    obtain ⟨ho, rfl⟩ := lineWrite_eq_next.1 ha
    simp only [Host.Outcome.next.injEq] at hb
    exact .inr (.inr (.inr (.inr ⟨rfl, ‹_›, ho, hb.symm⟩)))

/-- Every next state of one dispatcher step. -/
theorem scanStep_eq_next {i : Nat} {s t : State} (h : scanStep i s = .next t) :
    (∃ k, i < s.n ∧ edgeEvent s.pressSet s.releaseSet s.prev s.cur i = some k ∧ t = emitEvent k i s) ∨
    (i < s.n ∧ edgeEvent s.pressSet s.releaseSet s.prev s.cur i = none ∧ t = gotoSeq (.scan (i + 1)) s) ∨
    (i = s.n ∧ t = scanEnd s) := by
  unfold scanStep at h
  split at h
  · simp only [Host.Outcome.next.injEq, scanBit] at h
    split at h
    · exact .inl ⟨_, ‹_›, ‹_›, h.symm⟩
    · exact .inr (.inl ⟨‹_›, ‹_›, h.symm⟩)
  · split at h
    · simp only [Host.Outcome.next.injEq] at h
      exact .inr (.inr ⟨‹_›, h.symm⟩)
    · contradiction

/-- Every next state of one sequencer step. -/
theorem seqStep_eq_next {s t : State} (h : seqStep s = .next t) :
    (s.portOpen = true ∧ t = s) ∨
    (∃ i ph, s.seq = .acq i ph ∧ acqStep i ph s = .next t) ∨
    (∃ i, s.seq = .scan i ∧ scanStep i s = .next t) := by
  unfold seqStep at h
  split at h
  · simp_all [State.portOpen, SeqPos.accepts]
  · exact .inr (.inl ⟨_, _, ‹_›, h⟩)
  · exact .inr (.inr ⟨_, ‹_›, h⟩)
  · simp_all [State.portOpen, SeqPos.accepts]

/-! ### The engine (41_hw_assisted_acquisition.md R83) -/

/-- Every next state of one engine step, position by position. -/
theorem engineStep_eq_next {s t : State} (h : engineStep s = .next t) :
    (engineLive s = false ∧ t = s) ∨
    (engineLive s = true ∧ s.eSeq = .hold ∧ s.sckOe = true ∧
      t = gotoEngine .rise { driveSck s.idle s with eAcc := 0, eBit := 0 }) ∨
    (engineLive s = true ∧ s.eSeq = .rise ∧ s.eBit < s.n ∧ s.sckOe = true ∧ t = gotoEngine .capt (driveSck s.active s)) ∨
    (engineLive s = true ∧ s.eSeq = .capt ∧ s.eBit < s.n ∧ s.sdoIn = true ∧
      t = gotoEngine .fall { recordRead (drawLevel s).1 (drawLevel s).2 with
        eAcc := writeBit (recordRead (drawLevel s).1 (drawLevel s).2).eAcc
          (recordRead (drawLevel s).1 (drawLevel s).2).eBit (drawLevel s).1 }) ∨
    (engineLive s = true ∧ s.eSeq = .fall ∧ s.eBit < s.n ∧ s.sckOe = true ∧ t = engineNextBit (driveSck s.idle s)) ∨
    (engineLive s = true ∧ s.eSeq = .emit ∧ t = engineEmit s) ∨
    (engineLive s = true ∧ s.eSeq = .settle ∧ s.sckOe = true ∧
      t = gotoEngine .hold (driveSck (s.plat.settleLevel.level s.pol) s)) := by
  unfold engineStep at h
  cases hl : engineLive s <;> simp only [hl, Bool.false_eq_true, if_true, if_false] at h
  · exact .inl ⟨rfl, (Host.Outcome.next.inj h).symm⟩
  · refine .inr ?_
    cases he : s.eSeq <;> simp only [engineRunStep, he] at h
    · obtain ⟨a, ha, hb⟩ := andThen_eq_next.1 h
      obtain ⟨ho, rfl⟩ := lineWrite_eq_next.1 ha
      exact .inl ⟨rfl, rfl, ho, (Host.Outcome.next.inj hb).symm⟩
    · split at h <;> try contradiction
      obtain ⟨a, ha, hb⟩ := andThen_eq_next.1 h
      obtain ⟨ho, rfl⟩ := lineWrite_eq_next.1 ha
      exact .inr (.inl ⟨rfl, rfl, ‹_›, ho, (Host.Outcome.next.inj hb).symm⟩)
    · split at h <;> try contradiction
      obtain ⟨⟨b, a⟩, ha, hb⟩ := andThen_eq_next.1 h
      obtain ⟨ho, rfl, rfl⟩ := lineRead_eq_next.1 ha
      exact .inr (.inr (.inl ⟨rfl, rfl, ‹_›, ho, (Host.Outcome.next.inj hb).symm⟩))
    · split at h <;> try contradiction
      obtain ⟨a, ha, hb⟩ := andThen_eq_next.1 h
      obtain ⟨ho, rfl⟩ := lineWrite_eq_next.1 ha
      exact .inr (.inr (.inr (.inl ⟨rfl, rfl, ‹_›, ho, (Host.Outcome.next.inj hb).symm⟩)))
    · exact .inr (.inr (.inr (.inr (.inl ⟨rfl, rfl, (Host.Outcome.next.inj h).symm⟩))))
    · obtain ⟨a, ha, hb⟩ := andThen_eq_next.1 h
      obtain ⟨ho, rfl⟩ := lineWrite_eq_next.1 ha
      exact .inr (.inr (.inr (.inr (.inr ⟨rfl, rfl, ho, (Host.Outcome.next.inj hb).symm⟩))))

/-! ### The commands -/

/-- The two ways the hardware-assisted acquisition can answer next. -/
theorem acquireQueued_eq_next {s t : State} (h : acquireQueued s = .next t) :
    (s.fifo = [] ∧ t = respond .ok 0 s) ∨
    (∃ w rest, s.fifo = w :: rest ∧ t = gotoSeq (.scan 0) { s with fifo := rest, cur := w }) := by
  unfold acquireQueued fifoCount at h
  split at h
  · exact .inl ⟨List.length_eq_zero_iff.1 ‹_›, (Host.Outcome.next.inj h).symm⟩
  · obtain ⟨⟨w, a⟩, ha, hb⟩ := andThen_eq_next.1 h
    obtain ⟨rest, hf, rfl⟩ := fifoPop_eq_next.1 ha
    exact .inr ⟨w, rest, hf, (Host.Outcome.next.inj hb).symm⟩

/-- Every command begins with the same tests (60_exceptions.md R137). -/
theorem exec_is_command (i : Instr) (s : State) : ∃ body, exec i s = command s body := by
  cases i <;> simp only [exec, execPoll, execSample, execChannel, execCount, execTeardown, execSetpress, execSetrelease] <;>
    exact ⟨_, rfl⟩

/-- Everything a command can answer next: a fault response, or the effect of its own rule. -/
theorem exec_eq_next {i : Instr} {s t : State} (h : exec i s = .next t) :
    s.portOpen = true ∧
    ((∃ f, t = raiseFault f s ∧ f ≠ .illegalCommand) ∨
     (s.failed = false ∧
      ((∃ d, t = respond .ok d s) ∨
       (∃ en, i = .setpress en ∧ t = respond .ok 0 (setPressFlag en s)) ∨
       (∃ en, i = .setrelease en ∧ t = respond .ok 0 (setReleaseFlag en s)) ∨
       (i = .teardown ∧ s.seq = .ready ∧ s.released = false ∧
          t = respond .ok 0 (setReleasedFlag (releaseResources s))) ∨
       (i = .poll ∧ s.seq = .ready ∧ s.released = false ∧ s.backend = .bitbang ∧ t = gotoSeq (.acq 0 .start) s) ∨
       (i = .poll ∧ s.seq = .ready ∧ s.released = false ∧ s.backend = .hwassist ∧
          ∃ w rest, s.fifo = w :: rest ∧ t = gotoSeq (.scan 0) { s with fifo := rest, cur := w })))) := by
  obtain ⟨b, hb⟩ := exec_is_command i s
  rcases command_cases s b with ⟨-, hc⟩ | ⟨hp, -, hc⟩ | ⟨hp, hf, -⟩
  · rw [hb, hc] at h; contradiction
  · rw [hb, hc] at h
    exact ⟨hp, .inl ⟨.acquireFailed, (Host.Outcome.next.inj h).symm, by decide⟩⟩
  refine ⟨hp, ?_⟩
  cases i with
  | sample => simp only [exec, execSample, command_of_open _ hp hf, Host.Outcome.next.injEq] at h; exact .inr ⟨hf, .inl ⟨_, h.symm⟩⟩
  | channel idx => simp only [exec, execChannel, command_of_open _ hp hf, Host.Outcome.next.injEq] at h; exact .inr ⟨hf, .inl ⟨_, h.symm⟩⟩
  | count => simp only [exec, execCount, command_of_open _ hp hf, Host.Outcome.next.injEq] at h; exact .inr ⟨hf, .inl ⟨_, h.symm⟩⟩
  | setpress en =>
    simp only [exec, execSetpress, command_of_open _ hp hf, Host.Outcome.next.injEq] at h
    exact .inr ⟨hf, .inr (.inl ⟨en, rfl, h.symm⟩)⟩
  | setrelease en =>
    simp only [exec, execSetrelease, command_of_open _ hp hf, Host.Outcome.next.injEq] at h
    exact .inr ⟨hf, .inr (.inr (.inl ⟨en, rfl, h.symm⟩))⟩
  | teardown =>
    simp only [exec, execTeardown, command_of_open _ hp hf] at h
    split at h
    · exact .inl ⟨.busy, (Host.Outcome.next.inj h).symm, by decide⟩
    · split at h
      · exact .inr ⟨hf, .inl ⟨0, (Host.Outcome.next.inj h).symm⟩⟩
      · exact .inr ⟨hf, .inr (.inr (.inr (.inl ⟨rfl, ready_of_open_of_not_waiting hp (by simpa using ‹¬ s.waiting = true›),
          by simpa using ‹¬ s.released = true›, (Host.Outcome.next.inj h).symm⟩)))⟩
  | poll =>
    simp only [exec, execPoll, command_of_open _ hp hf] at h
    split at h
    · exact .inl ⟨.busy, (Host.Outcome.next.inj h).symm, by decide⟩
    · have hr := ready_of_open_of_not_waiting hp (by simpa using ‹¬ s.waiting = true›)
      split at h
      · exact .inl ⟨.useAfterRelease, (Host.Outcome.next.inj h).symm, by decide⟩
      · have hrel : s.released = false := by simpa using ‹¬ s.released = true›
        split at h
        · exact .inr ⟨hf, .inr (.inr (.inr (.inr (.inl ⟨rfl, hr, hrel, ‹_›, (Host.Outcome.next.inj h).symm⟩))))⟩
        · rcases acquireQueued_eq_next h with ⟨-, ht⟩ | ht
          · exact .inr ⟨hf, .inl ⟨0, ht⟩⟩
          · exact .inr ⟨hf, .inr (.inr (.inr (.inr (.inr ⟨rfl, hr, hrel, ‹_›, ht⟩))))⟩

/-- A reserved word can only be answered with a fault. -/
theorem illegalWord_eq_next {s t : State} (h : illegalWord s = .next t) :
    s.portOpen = true ∧ ∃ f, t = raiseFault f s := by
  rcases command_cases s (fun t => .next (raiseFault .illegalCommand t)) with ⟨-, hc⟩ | ⟨hp, -, hc⟩ | ⟨hp, -, hc⟩ <;>
    rw [illegalWord, hc] at h
  · contradiction
  · exact ⟨hp, _, (Host.Outcome.next.inj h).symm⟩
  · exact ⟨hp, _, (Host.Outcome.next.inj h).symm⟩

/-- A word from the port is a command's execution or a fault response. -/
theorem runWord_eq_next {w : CmdWord} {s t : State} (h : runWord w s = .next t) :
    (∃ i, decode w = .command i ∧ exec i s = .next t) ∨ (s.portOpen = true ∧ ∃ f, t = raiseFault f s) := by
  unfold runWord at h
  split at h
  · exact .inl ⟨_, ‹_›, h⟩
  · exact .inr (illegalWord_eq_next h)

/-! ### Who moves -/

/-- Every next state of a host move. -/
theorem hostTurn_eq_next {s t : State} (h : hostTurn s = .next t) :
    t = s ∨
    (∃ w rest, s.host = .cmd w :: rest ∧ s.portOpen = true ∧ runWord w { s with host := rest } = .next t) ∨
    (∃ i rest, s.host = .ack :: rest ∧ s.seq = .evwait i ∧ t = acknowledge i { s with host := rest }) ∨
    (∃ st rest, s.host = .reset st :: rest ∧ t = resetBlock st { s with host := rest }) := by
  unfold hostTurn at h
  split at h
  · exact .inl (Host.Outcome.next.inj h).symm
  · split at h
    · exact .inr (.inl ⟨_, _, ‹_›, ‹_›, h⟩)
    · exact .inl (Host.Outcome.next.inj h).symm
  · unfold hostAck at h
    split at h
    · contradiction
    · exact .inl (Host.Outcome.next.inj h).symm
    · exact .inl (Host.Outcome.next.inj h).symm
    · exact .inr (.inr (.inl ⟨_, _, ‹_›, ‹_›, (Host.Outcome.next.inj h).symm⟩))
  · exact .inr (.inr (.inr ⟨_, _, ‹_›, (Host.Outcome.next.inj h).symm⟩))

/-- Every step is an idle wait or one agent's move, after the turn list or the count of draws has advanced. -/
theorem step_cases (s : State) :
    step s = .next s ∨ ∃ a ts d, step s = agentTurn a { s with turns := ts, draws := d } := by
  unfold step nextTurn
  split
  · exact .inr ⟨_, _, s.draws, rfl⟩
  · rename_i ht
    have hs : s = { s with turns := [], draws := s.draws } := by
      cases s; simp only at ht; subst ht; rfl
    unfold unscheduledTurn
    split
    · exact .inl rfl
    · exact .inr ⟨_, [], s.draws, congrArg _ hs⟩
    · refine .inr ⟨_, [], s.draws + 1, congrArg _ ?_⟩
      cases s; simp only at ht; subst ht; rfl

end Sys2Proof.Machine

namespace Sys2Proof.Safety

open Sys2Proof.Machine

/-! ### Several moves of one agent -/

/-- One move, then the others. -/
theorem iterate_succ_of_next {f : State → Result} {s t : State} (k : Nat) (h : f s = .next t) :
    iterate f (k + 1) s = iterate f k t := by simp [iterate, h]

/-- `k` moves that answer next, then `l` more. -/
theorem iterate_add_of_next {f : State → Result} {k : Nat} {s t : State} (l : Nat) (h : iterate f k s = .next t) :
    iterate f (k + l) s = iterate f l t := by
  induction k generalizing s with
  | zero => simp only [iterate, Host.Outcome.next.injEq] at h; subst h; simp
  | succ k ih =>
    obtain ⟨a, ha, hb⟩ := andThen_eq_next.1 (show andThen (f s) (iterate f k) = .next t from h)
    rw [Nat.succ_add, iterate_succ_of_next _ ha]
    exact ih hb

end Sys2Proof.Safety
end

