-- ==== Sys2Proof/Certificates/Slice0/Obligations.lean ====
section
/-! DEFINITION. The statements for the provers. -/

open Sys2Proof Sys2Proof.Machine Sys2Proof.Safety

/-! ### Encoding (30_encoding.md) -/

/-- R68: "`encode` is the inverse on the seven constructors with in-range operands", one direction. -/
def Obligations.DecodeOfEncodeIsInstruction : Prop :=
  ∀ i : Instr, i.wellFormed = true → decode (encode i) = .command i

/-- The other direction: a word that decodes to a command is that command's encoding, and its operand is in range. -/
def Obligations.EncodeOfDecodeIsWord : Prop :=
  ∀ (w : CmdWord) (i : Instr), decode w = .command i → i.wellFormed = true ∧ encode i = w

/-- R57: a word decodes to the command whose row selects it, to no command where no row does, and at most one row selects it. -/
def Obligations.DecodeFollowsOpcodeMap : Prop :=
  ∀ w : CmdWord,
    (∀ i, decode w = .command i → ∃ r ∈ opcodeMap, r.mnemonic = i.mnemonic ∧ r.selects w = true) ∧
    (∀ why, decode w = .reserved why → ∀ r ∈ opcodeMap, r.selects w = false) ∧
    (∀ r ∈ opcodeMap, ∀ r' ∈ opcodeMap, r.selects w = true → r'.selects w = true → r = r')

/-- Words written out from 30_encoding.md R57 and 95_test_vectors.md 2.1. -/
def Obligations.WrittenOutWordsDecode : Prop :=
  decode 0b0001000000000000#16 = .command .poll ∧
  decode 0b0010000000000000#16 = .command .sample ∧
  decode 0b0011000000010010#16 = .command (.channel 18) ∧
  decode 0b0011111111111111#16 = .command (.channel 4095) ∧
  decode 0b0100000000000000#16 = .command .count ∧
  decode 0b0101000000000000#16 = .command .teardown ∧
  decode 0b0110000000000001#16 = .command (.setpress true) ∧
  decode 0b0111000000000000#16 = .command (.setrelease false) ∧
  decode 0b0000000000000000#16 = .reserved .reservedOp ∧
  decode 0b0001000000000001#16 = .reserved .mustBeZero ∧
  decode 0b0110100000000001#16 = .reserved .mustBeZero ∧
  decode 0b1000000000000000#16 = .reserved .reservedOp

/-! ### The command port -/

/-- When a word stands at the head of the host's actions and the port accepts, the host's move is `runWord` of it on the state `u` with
the word taken: `exec i` where it decodes to `i`, and where it is reserved (R59) exactly the fault response. So it is when `turns`
names the host, and when `turns` is empty and the engine cannot move. -/
def Obligations.StepRunsPresentedCommand : Prop :=
  ∀ (s u : State) (w : CmdWord) (rest : List HostAct) (ts : List Agent),
    s.host = .cmd w :: rest → s.portOpen = true →
    ((s.turns = .host :: ts ∧ u = { s with host := rest, turns := ts }) ∨
      (s.turns = [] ∧ engineEnabled s = false ∧ u = { s with host := rest })) →
    step s = runWord w u ∧
    (∀ i, decode w = .command i → step s = exec i u) ∧
    (∀ why, decode w = .reserved why →
      step s = .next { u with rspLog := u.rspLog ++ [if u.failed then 4#3 ++ u.errval else 0x10000#19] })

/-- A command placed with `withFetchWord` is what the next step executes. -/
def Obligations.FetchedWordIsExecuted : Prop :=
  ∀ (s : State) (w : Nat) (i : Instr), s.portOpen = true → decodeTableWord 16 w = some i →
    step (s.withFetchWord 16 w) = exec i s

/-- R78, R119: while the block clocks or scans the port accepts nothing. The host's turn changes nothing, the word stays on the port. -/
def Obligations.CommandWaitsWhileBlockIsBusy : Prop :=
  ∀ (s : State) (w : CmdWord) (rest : List HostAct) (ts : List Agent),
    s.host = .cmd w :: rest → s.portOpen = false → s.turns = .host :: ts → step s = .next { s with turns := ts }

/-- `exec` itself stops by name where the port accepts nothing (the model's own refusal, log entry 9). -/
def Obligations.ExecRefusesOnClosedPort : Prop :=
  ∀ (i : Instr) (s : State), s.portOpen = false → exec i s = .refused .portClosed

/-- Whose move a step is. The agent that `turns` names, whichever it is; with no turn listed the only agent that can move, whichever it
is; some agent where several can move (log entry 2); and with nothing able to move the machine waits (70 R164). -/
def Obligations.UnscheduledStepMovesTheOneAgent : Prop :=
  ∀ (s : State) (ts : List Agent),
    (s.turns = .host :: ts → step s = hostTurn { s with turns := ts }) ∧
    (s.turns = .sequencer :: ts → step s = seqStep { s with turns := ts }) ∧
    (s.turns = .engine :: ts → step s = engineStep { s with turns := ts }) ∧
    (s.turns = [] →
      (hostEnabled s = true → seqEnabled s = false → engineEnabled s = false → step s = hostTurn s) ∧
      (hostEnabled s = false → seqEnabled s = true → engineEnabled s = false → step s = seqStep s) ∧
      (hostEnabled s = false → seqEnabled s = false → engineEnabled s = true → step s = engineStep s) ∧
      (hostEnabled s = false → seqEnabled s = false → engineEnabled s = false → step s = .next s) ∧
      (2 ≤ (enabledAgents s).length → ∃ a, step s = agentTurn a { s with draws := s.draws + 1 }))

/-- R103: the acknowledge withdraws the event and the scan goes on at the next bit, on the host's turn and where no turn is listed and the
engine cannot move. -/
def Obligations.AcknowledgeResumesScan : Prop :=
  ∀ (s : State) (i : Nat) (rest : List HostAct) (ts : List Agent),
    s.host = .ack :: rest → s.seq = .evwait i →
    (s.turns = .host :: ts → step s = .next { s with host := rest, turns := ts, evPort := none, seq := .scan (i + 1) }) ∧
    (s.turns = [] → engineEnabled s = false →
      step s = .next { s with host := rest, evPort := none, seq := .scan (i + 1) })

/-! ### The accessors (43_channel_accessor.md) -/

/-- R109: the answer, its two exceptions, and that 8-key samples answer at most 0x00FF. -/
def Obligations.SampleAnswersCurrentSample : Prop :=
  ∀ s : State, s.portOpen = true →
    (s.failed = false → exec .sample s = .next { s with rspLog := s.rspLog ++ [0#3 ++ s.cur] }) ∧
    (s.failed = true → exec .sample s = .next { s with rspLog := s.rspLog ++ [4#3 ++ s.errval] }) ∧
    runWord 0x2000#16 s = exec .sample s ∧
    (s.failed = false → ∀ arg : BitVec 12, arg ≠ 0 →
      runWord (2#4 ++ arg) s = .next { s with rspLog := s.rspLog ++ [0x10000#19] }) ∧
    (Inv s → s.mode = .key8 → s.cur ≤ 0x00FF#16)

/-- R110: the index is taken modulo `N`, which is its low 3 or 4 bits, and an index of `N` or more wraps. -/
def Obligations.ChannelAnswersBitModuloCount : Prop :=
  ∀ (idx : Nat) (s : State), s.portOpen = true →
    (s.failed = true → exec (.channel idx) s = .next { s with rspLog := s.rspLog ++ [4#3 ++ s.errval] }) ∧
    (∀ arg : BitVec 12, runWord (3#4 ++ arg) s = exec (.channel arg.toNat) s) ∧
    (s.failed = false →
      exec (.channel idx) s =
        .next { s with rspLog := s.rspLog ++ [0#3 ++ (if s.cur.getLsbD (idx % s.n) then 1#16 else 0#16)] } ∧
      exec (.channel (s.n + idx)) s = exec (.channel idx) s ∧
      (∀ a : BitVec 12, s.mode = .key8 → a.toNat % s.n = (a.extractLsb' 0 3).toNat) ∧
      (∀ a : BitVec 12, s.mode = .key16 → a.toNat % s.n = (a.extractLsb' 0 4).toNat))

/-- R111: the answer in each mode and the two exceptions. -/
def Obligations.CountAnswersChannelCount : Prop :=
  ∀ s : State, s.portOpen = true →
    (s.failed = true → exec .count s = .next { s with rspLog := s.rspLog ++ [4#3 ++ s.errval] }) ∧
    runWord 0x4000#16 s = exec .count s ∧
    (s.failed = false → ∀ arg : BitVec 12, arg ≠ 0 →
      runWord (4#4 ++ arg) s = .next { s with rspLog := s.rspLog ++ [0x10000#19] }) ∧
    (s.failed = false →
      (s.mode = .key8 → exec .count s = .next { s with rspLog := s.rspLog ++ [0x00008#19] }) ∧
      (s.mode = .key16 → exec .count s = .next { s with rspLog := s.rspLog ++ [0x00010#19] }))

/-- R112: in one state `CHANNEL i` answers bit `i` of what `SAMPLE` answers. -/
def Obligations.AccessorsAgree : Prop :=
  ∀ s : State, s.portOpen = true → s.failed = false →
    ∃ d : Word, exec .sample s = .next { s with rspLog := s.rspLog ++ [0#3 ++ d] } ∧
      ∀ i, i < s.n →
        exec (.channel i) s =
          .next { s with rspLog := s.rspLog ++ [0#3 ++ (if d &&& (1#16 <<< i) = 0 then 0#16 else 1#16)] }

/-! ### Handler slots and teardown (45_lifecycle.md) -/

/-- R124: `PRESS_SET` takes `en` in `READY` and in `EVWAIT(i)`, nothing else but the response; the two exceptions. -/
def Obligations.SetPressWritesItsFlag : Prop :=
  ∀ (en : Bool) (s : State), s.portOpen = true →
    (s.failed = false → exec (.setpress en) s = .next { s with pressSet := en, rspLog := s.rspLog ++ [0#19] }) ∧
    (s.failed = true → exec (.setpress en) s = .next { s with rspLog := s.rspLog ++ [4#3 ++ s.errval] }) ∧
    runWord (0x6000#16 ||| bitData en) s = exec (.setpress en) s ∧
    (s.failed = false → ∀ arg : BitVec 12, arg.extractLsb' 1 11 ≠ 0 →
      runWord (6#4 ++ arg) s = .next { s with rspLog := s.rspLog ++ [0x10000#19] })

/-- R125: `RELEASE_SET` takes `en`, likewise. -/
def Obligations.SetReleaseWritesItsFlag : Prop :=
  ∀ (en : Bool) (s : State), s.portOpen = true →
    (s.failed = false → exec (.setrelease en) s = .next { s with releaseSet := en, rspLog := s.rspLog ++ [0#19] }) ∧
    (s.failed = true → exec (.setrelease en) s = .next { s with rspLog := s.rspLog ++ [4#3 ++ s.errval] }) ∧
    runWord (0x7000#16 ||| bitData en) s = exec (.setrelease en) s ∧
    (s.failed = false → ∀ arg : BitVec 12, arg.extractLsb' 1 11 ≠ 0 →
      runWord (7#4 ++ arg) s = .next { s with rspLog := s.rspLog ++ [0x10000#19] })

/-- Every case of `TEARDOWN` (R122). That `LineRelease(SDO)` is the field `sdoIn` is the model's (log entry 8). -/
def Obligations.TeardownReleasesResources : Prop :=
  ∀ s : State, s.portOpen = true →
    (s.failed = true → exec .teardown s = .next { s with rspLog := s.rspLog ++ [4#3 ++ s.errval] }) ∧
    (s.failed = false → (∃ i, s.seq = .evwait i) → exec .teardown s = .next { s with rspLog := s.rspLog ++ [0x30000#19] }) ∧
    (s.failed = false → s.seq = .ready → s.released = true →
      exec .teardown s = .next { s with rspLog := s.rspLog ++ [0#19] }) ∧
    (s.failed = false → s.seq = .ready → s.released = false → s.backend = .bitbang →
      exec .teardown s =
        .next { s with sckOe := false, sdoIn := false, released := true, rspLog := s.rspLog ++ [0#19] }) ∧
    (s.failed = false → s.seq = .ready → s.released = false → s.backend = .hwassist →
      exec .teardown s =
        .next { s with sckOe := false, sdoIn := false, eRun := false, fifo := [], released := true,
                       rspLog := s.rspLog ++ [0#19] })

/-! ### Faults (60_exceptions.md) -/

/-- R130: which words are reserved, and that a reserved word is answered status 1 with data 0 and changes nothing, in `READY` and in
`EVWAIT(i)`. -/
def Obligations.ReservedWordsAnswerIllegalCommand : Prop :=
  ∀ w : CmdWord,
    ((∃ why, decode w = .reserved why) ↔
      (w.extractLsb' 12 4 = 0#4 ∨ 8#4 ≤ w.extractLsb' 12 4 ∨
       ((w.extractLsb' 12 4 = 1#4 ∨ w.extractLsb' 12 4 = 2#4 ∨ w.extractLsb' 12 4 = 4#4 ∨ w.extractLsb' 12 4 = 5#4) ∧
          w.extractLsb' 0 12 ≠ 0#12) ∨
       ((w.extractLsb' 12 4 = 6#4 ∨ w.extractLsb' 12 4 = 7#4) ∧ w.extractLsb' 1 11 ≠ 0#11))) ∧
    (∀ (s : State) (why : Reserved), decode w = .reserved why → s.portOpen = true → s.failed = false →
      runWord w s = .next { s with rspLog := s.rspLog ++ [0x10000#19] })

/-- R131: a failed block answers every word, legal or reserved, with status 4 and `ERRVAL`, and changes nothing; it drives no pin and
runs no engine; a reset with `ACQ_FAIL` makes it so. -/
def Obligations.FailedBlockAnswersEveryWord : Prop :=
  (∀ (w : CmdWord) (s : State), s.portOpen = true → s.failed = true →
    runWord w s = .next { s with rspLog := s.rspLog ++ [4#3 ++ s.errval] }) ∧
  (∀ s : State, Inv s → s.failed = true → s.seq = .ready ∧ s.wire = none ∧ engineStep s = .next s) ∧
  (∀ (p : Platform) (st : Straps), st.acqFail = true →
    (State.resetWith p st).failed = true ∧ (State.resetWith p st).errval = st.acqErr)

/-- R132: after `TEARDOWN` a `POLL` is answered status 2 and does nothing, and every other command is answered `OK` and touches no
resource. -/
def Obligations.OnlyPollFaultsAfterTeardown : Prop :=
  ∀ s : State, s.seq = .ready → s.failed = false → s.released = true →
    exec .poll s = .next { s with rspLog := s.rspLog ++ [0x20000#19] } ∧
    ∀ i, i ≠ .poll → ∃ d : Word, ∃ pressSet releaseSet : Bool,
      exec i s = .next { s with pressSet := pressSet, releaseSet := releaseSet, rspLog := s.rspLog ++ [0#3 ++ d] }

/-- R133: inside a handler `POLL` and `TEARDOWN` are answered status 3 and do nothing, and every other command is answered `OK` and
leaves the event waiting. -/
def Obligations.OnlyPollAndTeardownAreBusyInHandler : Prop :=
  ∀ (s : State) (i : Nat), s.seq = .evwait i → s.failed = false →
    exec .poll s = .next { s with rspLog := s.rspLog ++ [0x30000#19] } ∧
    exec .teardown s = .next { s with rspLog := s.rspLog ++ [0x30000#19] } ∧
    ∀ c, c ≠ .poll → c ≠ .teardown →
      ∃ (t : State) (d : Word), exec c s = .next t ∧ t.rspLog = s.rspLog ++ [0#3 ++ d] ∧ t.seq = .evwait i

/-- R129: a fault response is the whole effect of the word it answers, and its data is `ERRVAL` for `AcquireFailed`, 0 for the others. -/
def Obligations.FaultResponseIsWholeEffect : Prop :=
  ∀ (w : CmdWord) (s t : State) (r : RspWord), runWord w s = .next t → t.rspLog = s.rspLog ++ [r] → rspStatus r ≠ 0#3 →
    t = { s with rspLog := s.rspLog ++ [r] } ∧ r.extractLsb' 0 16 = (if rspStatus r = 4#3 then s.errval else 0#16)

/-- R62: a command that is accepted is answered with one response at once and leaves `SEQ` where it was, or it is a `POLL` whose
response comes when its dispatch ends. -/
def Obligations.OneResponsePerAcceptedWord : Prop :=
  ∀ (w : CmdWord) (s t : State), runWord w s = .next t →
    ((∃ r, t.rspLog = s.rspLog ++ [r]) ∧ t.seq = s.seq) ∨
    (decode w = .command .poll ∧ t.rspLog = s.rspLog ∧ s.seq = .ready ∧ (t.seq = .acq 0 .start ∨ t.seq = .scan 0))

/-- What no word from the port changes at its acceptance (10_state.md R18, R34; 44 R121): configuration, samples but `CUR`, the
accumulators, the clock level, the engine's position, the ports' records of lines and events, the inputs still to come. -/
def Obligations.CommandFrame : Prop :=
  ∀ (w : CmdWord) (s t : State), runWord w s = .next t →
    (t.plat = s.plat ∧ t.mode = s.mode ∧ t.pol = s.pol ∧ t.backend = s.backend ∧ t.failed = s.failed ∧
      t.errval = s.errval ∧ t.prev = s.prev ∧ t.acc = s.acc ∧ t.sckOut = s.sckOut ∧ t.sckUnset = s.sckUnset ∧
      t.eSeq = s.eSeq ∧ t.eBit = s.eBit ∧ t.eAcc = s.eAcc ∧ t.evPort = s.evPort ∧ t.evLog = s.evLog ∧
      t.trace = s.trace ∧ t.host = s.host ∧ t.turns = s.turns ∧ t.device = s.device ∧ t.draws = s.draws) ∧
    (t.cur ≠ s.cur → decode w = .command .poll ∧ s.backend = .hwassist) ∧
    (t.pressSet ≠ s.pressSet → ∃ en, decode w = .command (.setpress en)) ∧
    (t.releaseSet ≠ s.releaseSet → ∃ en, decode w = .command (.setrelease en)) ∧
    (t.released ≠ s.released → decode w = .command .teardown) ∧
    (t.sckOe ≠ s.sckOe → decode w = .command .teardown) ∧
    (t.sdoIn ≠ s.sdoIn → decode w = .command .teardown) ∧
    (t.eRun ≠ s.eRun → decode w = .command .teardown) ∧
    (t.fifo ≠ s.fifo → (decode w = .command .teardown ∨ decode w = .command .poll) ∧ s.backend = .hwassist) ∧
    (t.seq ≠ s.seq → decode w = .command .poll)

/-! ### The poll operation (44_poll.md) -/

/-- 46 R168: on `BITBANG` an accepted `POLL` begins the acquisition and does nothing else yet. -/
def Obligations.PollStartsBitBangAcquisition : Prop :=
  ∀ s : State, s.seq = .ready → s.failed = false → s.released = false → s.backend = .bitbang →
    exec .poll s = .next { s with seq := .acq 0 .start }

/-- R92, R93: exactly one word, the oldest, leaves the queue and becomes `CUR` whole; `PREV` is not written; dispatch begins. -/
def Obligations.PollTakesOldestQueuedWord : Prop :=
  ∀ (s : State) (w : Word) (rest : List Word),
    s.seq = .ready → s.failed = false → s.released = false → s.backend = .hwassist → s.fifo = w :: rest →
    exec .poll s = .next { s with cur := w, fifo := rest, seq := .scan 0 }

/-- R94: an empty queue is answered 0 and nothing changes. -/
def Obligations.PollOfEmptyQueueAnswersFalse : Prop :=
  ∀ s : State, s.seq = .ready → s.failed = false → s.released = false → s.backend = .hwassist → s.fifo = [] →
    exec .poll s = .next { s with rspLog := s.rspLog ++ [0#19] }

/-! ### The bit-bang sampler (40_bitbang_acquisition.md) -/

/-- 46 R168's rows of the acquisition: the clock writes, the read and the accumulator of each position. A read takes the listed
level; where none is listed it takes some level, whichever it is. -/
def Obligations.AcquisitionRows : Prop :=
  ∀ (s : State) (i : Nat), s.sckOe = true → s.sdoIn = true →
    (s.seq = .acq 0 .start →
      seqStep s = .next { s with acc := 0, sckOut := s.idle, sckUnset := false, trace := s.trace ++ [.sck s.idle],
                                 seq := .acq 0 .rise }) ∧
    (s.seq = .acq i .rise → i < s.n →
      seqStep s = .next { s with sckOut := s.active, sckUnset := false, trace := s.trace ++ [.sck s.active],
                                 seq := .acq i .capt }) ∧
    (s.seq = .acq i .capt → i < s.n → ∀ b rest, s.device = b :: rest →
      seqStep s = .next { s with acc := if b then s.acc ||| BitVec.twoPow 16 i else s.acc, device := rest,
                                 trace := s.trace ++ [.sdo b], seq := .acq i .fall }) ∧
    (s.seq = .acq i .capt → i < s.n → s.device = [] →
      ∃ b, seqStep s = .next { s with acc := if b then s.acc ||| BitVec.twoPow 16 i else s.acc, draws := s.draws + 1,
                                      trace := s.trace ++ [.sdo b], seq := .acq i .fall }) ∧
    (s.seq = .acq i .fall → i < s.n →
      seqStep s = .next { s with sckOut := s.idle, sckUnset := false, trace := s.trace ++ [.sck s.idle],
                                 seq := if i + 1 < s.n then .acq (i + 1) .rise else .acq s.n .final }) ∧
    (s.seq = .acq s.n .final →
      seqStep s = .next { s with sckOut := s.active, sckUnset := false, trace := s.trace ++ [.sck s.active],
                                 cur := s.acc, seq := .scan 0 })

/-- R70: the whole procedure. From its start, 3`N` + 2 sequencer steps read `N` levels, write the fixed clock pattern, leave the
clock at `ACTIVE` and put into `CUR` the word whose bit `i` is the level of pulse `i`, whatever `ACC` held; nothing else changes. -/
def Obligations.AcquisitionSamplesTheLine : Prop :=
  ∀ (s : State) (bits rest : List Level),
    s.seq = .acq 0 .start → s.sckOe = true → s.sdoIn = true → s.device = bits ++ rest → bits.length = s.n →
    iterate seqStep (3 * s.n + 2) s =
      .next { s with
        acc := sampleWord bits, cur := sampleWord bits, device := rest, sckOut := s.active, sckUnset := false,
        trace := s.trace ++ acqTrace s.active s.idle bits, seq := .scan 0 }

/-- The same where the device lists no level: for SOME `N` levels the procedure ends as above. It holds for every value of the free
levels. -/
def Obligations.AcquisitionSamplesFreeLevels : Prop :=
  ∀ s : State, s.seq = .acq 0 .start → s.sckOe = true → s.sdoIn = true → s.device = [] →
    ∃ bits : List Level, bits.length = s.n ∧
      iterate seqStep (3 * s.n + 2) s =
        .next { s with
          acc := sampleWord bits, cur := sampleWord bits, draws := s.draws + s.n, sckOut := s.active, sckUnset := false,
          trace := s.trace ++ acqTrace s.active s.idle bits, seq := .scan 0 }

/-- R79: two acquisitions from one state that read different levels. Each performs the clock writes `IDLE`, (`ACTIVE`, `IDLE`) x `N`,
`ACTIVE`, 2`N` + 2 of them, whatever it reads, and reads its `N` levels in order. -/
def Obligations.ClockPatternIgnoresData : Prop :=
  ∀ (s : State) (bits bits' rest rest' : List Level),
    s.seq = .acq 0 .start → s.sckOe = true → s.sdoIn = true → bits.length = s.n → bits'.length = s.n →
    ∃ t t', iterate seqStep (3 * s.n + 2) { s with device := bits ++ rest } = .next t ∧
      iterate seqStep (3 * s.n + 2) { s with device := bits' ++ rest' } = .next t' ∧
      clockWrites t.trace = clockWrites t'.trace ∧
      clockWrites t.trace =
        clockWrites s.trace ++ s.idle :: ((List.replicate s.n [s.active, s.idle]).flatten ++ [s.active]) ∧
      (clockWrites t.trace).length = (clockWrites s.trace).length + (2 * s.n + 2) ∧
      dataReads t.trace = dataReads s.trace ++ bits ∧ dataReads t'.trace = dataReads s.trace ++ bits'

/-- R73: the clock write of every pulse is an edge on the wire, from `IDLE` to `ACTIVE`. -/
def Obligations.EveryPulseRisesFromIdle : Prop :=
  ∀ (s t : State) (i : Nat), ClockInv s → s.backend = .bitbang → s.seq = .acq i .rise → seqStep s = .next t →
    s.wire = some s.idle ∧ s.sckOe = true ∧ t.wire = some s.active ∧ s.active = !s.idle

/-! ### The edge detector (42_edge_dispatch.md) -/

/-- 46 R168's rows of the scan, with R98's classes spelled out: an unchanged bit and a changed bit with no handler of its kind go on
silently (R104); a changed bit with its handler puts its word on the event port and waits; after the last bit `PREV <- CUR` and
the response is `OK`, 1. -/
def Obligations.ScanRows : Prop :=
  ∀ (s : State) (i : Nat),
    (s.seq = .scan i → i < s.n → s.cur.getLsbD i = s.prev.getLsbD i → seqStep s = .next { s with seq := .scan (i + 1) }) ∧
    (s.seq = .scan i → i < s.n → s.cur.getLsbD i = true → s.prev.getLsbD i = false → s.pressSet = false →
      seqStep s = .next { s with seq := .scan (i + 1) }) ∧
    (s.seq = .scan i → i < s.n → s.cur.getLsbD i = false → s.prev.getLsbD i = true → s.releaseSet = false →
      seqStep s = .next { s with seq := .scan (i + 1) }) ∧
    (s.seq = .scan i → i < s.n → s.cur.getLsbD i = true → s.prev.getLsbD i = false → s.pressSet = true →
      seqStep s = .next { s with evPort := some (1#1 ++ BitVec.ofNat 4 i), evLog := s.evLog ++ [1#1 ++ BitVec.ofNat 4 i],
                                 seq := .evwait i }) ∧
    (s.seq = .scan i → i < s.n → s.cur.getLsbD i = false → s.prev.getLsbD i = true → s.releaseSet = true →
      seqStep s = .next { s with evPort := some (0#1 ++ BitVec.ofNat 4 i), evLog := s.evLog ++ [0#1 ++ BitVec.ofNat 4 i],
                                 seq := .evwait i }) ∧
    (s.seq = .scan s.n → seqStep s = .next { s with prev := s.cur, rspLog := s.rspLog ++ [0x00001#19], seq := .ready })

/-- R97, R99: with a host whose handlers only return, `DISPATCH` emits the events R105 gives, in order, ends with `PREV` = `CUR` and the
response `OK`, 1, and changes nothing else. -/
def Obligations.DispatchEmitsEveryChange : Prop :=
  ∀ s : State, s.seq = .scan 0 → s.evPort = none →
    iterate promptStep (2 * s.n + 1) s =
      .next { s with
        prev := s.cur, seq := .ready, rspLog := s.rspLog ++ [0x00001#19],
        evLog := s.evLog ++ dispatchEvents s.pressSet s.releaseSet s.prev s.cur s.n }

/-- R101: the events of one `DISPATCH` carry strictly increasing indices below `N`. -/
def Obligations.DispatchIndicesIncrease : Prop :=
  ∀ (pressSet releaseSet : Bool) (prev cur : Word) (m : KeyMode),
    ((dispatchEvents pressSet releaseSet prev cur m.channels).map evIndex).Pairwise (· < ·) ∧
    ∀ e ∈ dispatchEvents pressSet releaseSet prev cur m.channels, evIndex e < m.channels

/-- R105: which events one `DISPATCH` emits: `PRESS i` exactly for the 1 bits of `CUR and ~PREV` when `PRESS_SET`, `RELEASE i` exactly
for the 1 bits of `~CUR and PREV` when `RELEASE_SET`; with both set there are as many as 1 bits of `CUR xor PREV`. -/
def Obligations.DispatchEventsAreTheDifferences : Prop :=
  ∀ (pressSet releaseSet : Bool) (prev cur : Word) (m : KeyMode),
    (∀ i, i < m.channels →
      ((1#1 ++ BitVec.ofNat 4 i : EvWord) ∈ dispatchEvents pressSet releaseSet prev cur m.channels ↔
        pressSet = true ∧ (cur &&& ~~~prev).getLsbD i = true) ∧
      ((0#1 ++ BitVec.ofNat 4 i : EvWord) ∈ dispatchEvents pressSet releaseSet prev cur m.channels ↔
        releaseSet = true ∧ (~~~cur &&& prev).getLsbD i = true)) ∧
    (dispatchEvents true true prev cur m.channels).length =
      ((List.range m.channels).filter fun i => (cur ^^^ prev).getLsbD i).length

/-- R107: when `CUR` = `PREV` the sequencer alone ends the scan in `N` + 1 steps, with no event and `PREV` as it was. -/
def Obligations.EqualSamplesDispatchNothing : Prop :=
  ∀ s : State, s.seq = .scan 0 → s.cur = s.prev →
    iterate seqStep (s.n + 1) s = .next { s with seq := .ready, rspLog := s.rspLog ++ [0x00001#19] }

/-- R100: presence is tested when the bit is reached. A handler of the event of bit `i` that writes `PRESS_SET` and returns decides
whether a press of bit `i` + 1 is reported, whatever `PRESS_SET` was before. -/
def Obligations.PresenceIsTestedAtTheBit : Prop :=
  ∀ (s : State) (i : Nat) (en : Bool),
    s.seq = .evwait i → s.failed = false → i + 1 < s.n →
    s.cur.getLsbD (i + 1) = true → s.prev.getLsbD (i + 1) = false →
    ∃ t u, exec (.setpress en) s = .next t ∧ t.seq = .evwait i ∧ seqStep (acknowledge i t) = .next u ∧
      (en = true → u.seq = .evwait (i + 1) ∧ u.evLog = s.evLog ++ [1#1 ++ BitVec.ofNat 4 (i + 1)]) ∧
      (en = false → u.seq = .scan (i + 2) ∧ u.evLog = s.evLog)

/-- The whole of one `POLL` on `BITBANG` as a run of the machine (44 R114, R121): the host issues `POLL` and then acknowledges each event;
no other agent can move. The wire shows the fixed pattern, `CUR` and `PREV` become the word read, the events are those of the old
and the new sample, and one response `OK`, 1 is returned. -/
def Obligations.BitBangPollEndToEnd : Prop :=
  ∀ (s : State) (bits rest : List Level) (h : List HostAct),
    s.backend = .bitbang → s.seq = .ready → s.failed = false → s.released = false →
    s.sckOe = true → s.sdoIn = true → s.evPort = none → s.turns = [] →
    s.device = bits ++ rest → bits.length = s.n → noReset h = true →
    s.host = .cmd 0x1000#16 ::
      (List.replicate (dispatchEvents s.pressSet s.releaseSet s.prev (sampleWord bits) s.n).length .ack ++ h) →
    core.run
        (1 + (3 * s.n + 2) +
          (s.n + 1 + (dispatchEvents s.pressSet s.releaseSet s.prev (sampleWord bits) s.n).length)) s =
      .next { s with
        host := h, device := rest, acc := sampleWord bits, cur := sampleWord bits, prev := sampleWord bits,
        sckOut := s.active, sckUnset := false, trace := s.trace ++ acqTrace s.active s.idle bits,
        rspLog := s.rspLog ++ [0x00001#19],
        evLog := s.evLog ++ dispatchEvents s.pressSet s.releaseSet s.prev (sampleWord bits) s.n }

/-- One `POLL` on `HWASSIST` with a word pending, with a host whose handlers only return (44 R114, R121): the oldest word becomes `CUR`
and `PREV`, its changes are reported, one response `OK`, 1 is returned, and no line is touched. -/
def Obligations.QueuedPollEndToEnd : Prop :=
  ∀ (s : State) (w : Word) (rest : List Word),
    s.backend = .hwassist → s.seq = .ready → s.failed = false → s.released = false → s.evPort = none → s.fifo = w :: rest →
    ∃ t, exec .poll s = .next t ∧
      iterate promptStep (2 * s.n + 1) t =
        .next { s with
          fifo := rest, cur := w, prev := w, rspLog := s.rspLog ++ [0x00001#19],
          evLog := s.evLog ++ dispatchEvents s.pressSet s.releaseSet s.prev w s.n }

/-! ### The engine and the queue (41_hw_assisted_acquisition.md, 20_memory.md) -/

/-- R83: one round of a running engine with room in the queue. From `HOLD`, 3`N` + 3 engine steps read `N` levels, write the pulses
and the settle level, append the word whose bit `i` is the level of pulse `i`, and are at `HOLD` again; nothing else changes. -/
def Obligations.EngineRoundQueuesOneWord : Prop :=
  ∀ (s : State) (bits rest : List Level),
    engineLive s = true → s.eSeq = .hold → s.sckOe = true → s.sdoIn = true → s.fifo.length < s.plat.fifoDepth →
    s.device = bits ++ rest → bits.length = s.n →
    iterate engineStep (3 * s.n + 3) s =
      .next { s with
        fifo := s.fifo ++ [sampleWord bits], eAcc := sampleWord bits, eBit := s.n - 1, device := rest,
        sckOut := s.plat.settleLevel.level s.pol, sckUnset := false,
        trace := s.trace ++ engineTrace s.active s.idle (s.plat.settleLevel.level s.pol) bits }

/-- R83 to R89, one position a step: the clock write, the read and the registers of each. A read takes the listed level; where none is
listed it takes some level, whichever it is. `EMIT` is `EmitPushesHoldsOrDrops`. -/
def Obligations.EngineRows : Prop :=
  ∀ s : State, engineLive s = true → s.sckOe = true → s.sdoIn = true →
    (s.eSeq = .hold →
      engineStep s = .next { s with eAcc := 0, eBit := 0, sckOut := s.idle, sckUnset := false,
                                    trace := s.trace ++ [.sck s.idle], eSeq := .rise }) ∧
    (s.eSeq = .rise → s.eBit < s.n →
      engineStep s = .next { s with sckOut := s.active, sckUnset := false, trace := s.trace ++ [.sck s.active],
                                    eSeq := .capt }) ∧
    (s.eSeq = .capt → s.eBit < s.n → ∀ b rest, s.device = b :: rest →
      engineStep s = .next { s with eAcc := writeBit s.eAcc s.eBit b, device := rest, trace := s.trace ++ [.sdo b],
                                    eSeq := .fall }) ∧
    (s.eSeq = .capt → s.eBit < s.n → s.device = [] →
      ∃ b, engineStep s = .next { s with eAcc := writeBit s.eAcc s.eBit b, draws := s.draws + 1,
                                         trace := s.trace ++ [.sdo b], eSeq := .fall }) ∧
    (∀ (j : Nat) (b : Level), s.eBit < s.n → j < 16 →
      (writeBit s.eAcc s.eBit b).getLsbD j = if j = s.eBit then b else s.eAcc.getLsbD j) ∧
    (s.eSeq = .fall → s.eBit < s.n →
      engineStep s = .next { s with sckOut := s.idle, sckUnset := false, trace := s.trace ++ [.sck s.idle],
                                    eBit := if s.eBit + 1 < s.n then s.eBit + 1 else s.eBit,
                                    eSeq := if s.eBit + 1 < s.n then .rise else .emit }) ∧
    (s.eSeq = .settle →
      engineStep s = .next { s with sckOut := s.plat.settleLevel.level s.pol, sckUnset := false,
                                    trace := s.trace ++ [.sck (s.plat.settleLevel.level s.pol)], eSeq := .hold })

/-- One round where the device lists no level: for SOME `N` levels it ends as with those levels listed. It holds for every value of the
free levels. -/
def Obligations.EngineRoundSamplesFreeLevels : Prop :=
  ∀ s : State, engineLive s = true → s.eSeq = .hold → s.sckOe = true → s.sdoIn = true →
    s.fifo.length < s.plat.fifoDepth → s.device = [] →
    ∃ bits : List Level, bits.length = s.n ∧
      iterate engineStep (3 * s.n + 3) s =
        .next { s with
          fifo := s.fifo ++ [sampleWord bits], eAcc := sampleWord bits, eBit := s.n - 1, draws := s.draws + s.n,
          sckOut := s.plat.settleLevel.level s.pol, sckUnset := false,
          trace := s.trace ++ engineTrace s.active s.idle (s.plat.settleLevel.level s.pol) bits }

/-- R42: one round that meets a full queue. Under `stall` the `N` pulses occur, and from then on, however many steps the engine is given,
it holds at `EMIT` with its word and the clock at `IDLE`; under `drop_new` the word is discarded and the round goes on. The queue is
as it was in both. -/
def Obligations.EngineRoundAtFullQueue : Prop :=
  ∀ (s : State) (bits rest : List Level),
    engineLive s = true → s.eSeq = .hold → s.sckOe = true → s.sdoIn = true → s.plat.fifoDepth ≤ s.fifo.length →
    s.device = bits ++ rest → bits.length = s.n →
    (s.plat.fullPolicy = .stall → ∀ k,
      iterate engineStep (3 * s.n + 1 + k) s =
        .next { s with
          eSeq := .emit, eAcc := sampleWord bits, eBit := s.n - 1, device := rest, sckOut := s.idle, sckUnset := false,
          trace := s.trace ++ .sck s.idle :: pulses s.active s.idle bits }) ∧
    (s.plat.fullPolicy = .dropNew →
      iterate engineStep (3 * s.n + 3) s =
        .next { s with
          eAcc := sampleWord bits, eBit := s.n - 1, device := rest, sckOut := s.plat.settleLevel.level s.pol,
          sckUnset := false,
          trace := s.trace ++ engineTrace s.active s.idle (s.plat.settleLevel.level s.pol) bits })

/-- R96: given the same levels, the word the engine queues from any state is the sample the bit-bang sampler leaves in `CUR`, and bit
`i` of it is the level of pulse `i`. -/
def Obligations.BackendsAreBitCompatible : Prop :=
  ∀ (s e : State) (bits rest rest' : List Level),
    s.seq = .acq 0 .start → s.sckOe = true → s.sdoIn = true → s.device = bits ++ rest → bits.length = s.n →
    engineLive e = true → e.eSeq = .hold → e.sckOe = true → e.sdoIn = true → e.fifo.length < e.plat.fifoDepth →
    e.device = bits ++ rest' → e.n = s.n →
    ∃ t u w, iterate seqStep (3 * s.n + 2) s = .next t ∧ iterate engineStep (3 * e.n + 3) e = .next u ∧
      t.cur = w ∧ u.fifo = e.fifo ++ [w] ∧ ∀ i, i < s.n → w.getLsbD i = bits[i]?.getD false

/-- R41, R42, R88: `EMIT` pushes where there is room; at a full queue `stall` leaves the engine where it is, unable to move, and
`drop_new` goes on to `SETTLE` without the word. Meanwhile the clock is at `IDLE`. -/
def Obligations.EmitPushesHoldsOrDrops : Prop :=
  ∀ s : State, engineLive s = true → s.eSeq = .emit →
    (s.fifo.length < s.plat.fifoDepth →
      engineStep s = .next { s with fifo := s.fifo ++ [s.eAcc], eSeq := .settle }) ∧
    (s.plat.fifoDepth ≤ s.fifo.length → s.plat.fullPolicy = .stall →
      engineEnabled s = false ∧ engineStep s = .next s) ∧
    (s.plat.fifoDepth ≤ s.fifo.length → s.plat.fullPolicy = .dropNew →
      engineEnabled s = true ∧ engineStep s = .next { s with eSeq := .settle }) ∧
    (s.sckOe = true → ClockInv s → s.wire = some s.idle)

/-- R50 (c), R90: an engine step writes its own registers, the clock, the queue's tail and the trace, and nothing of the block. -/
def Obligations.EngineFrame : Prop :=
  ∀ s t : State, engineStep s = .next t →
    t = { s with
      eSeq := t.eSeq, eBit := t.eBit, eAcc := t.eAcc, fifo := t.fifo, sckOut := t.sckOut, sckUnset := t.sckUnset,
      device := t.device, draws := t.draws, trace := t.trace } ∧
    (t.fifo = s.fifo ∨ (t.fifo = s.fifo ++ [s.eAcc] ∧ s.eSeq = .emit ∧ s.fifo.length < s.plat.fifoDepth)) ∧
    (engineLive s = false → t = s)

/-- R52: a push between two polls is harmless. With a word pending, pushing before or after the `POLL` takes its word gives the same
state. -/
def Obligations.PushCommutesWithPoll : Prop :=
  ∀ (s a b : State), s.seq = .ready → s.failed = false → s.released = false → s.backend = .hwassist → s.fifo ≠ [] →
    s.eSeq = .emit → s.fifo.length < s.plat.fifoDepth →
    engineStep s = .next a → exec .poll s = .next b → ∃ c, exec .poll a = .next c ∧ engineStep b = .next c

/-- R50 (c): the scan and the engine share nothing; their steps give the same state in either order. -/
def Obligations.ScanCommutesWithEngine : Prop :=
  ∀ (s a b : State) (i : Nat), s.seq = .scan i → engineStep s = .next a → seqStep s = .next b →
    ∃ c, seqStep a = .next c ∧ engineStep b = .next c

/-! ### Reset (10_state.md R32, 70_reset_and_hazards.md) -/

/-- R32: every value the spec states for reset, for all parameters and straps. R26: in every state `PSTATE` is sample-ready exactly in
`SCAN(i)` and `EVWAIT(i)`, and idle everywhere else, `READY` included. -/
def Obligations.ResetLeavesSpecifiedValues : Prop :=
  (∀ (p : Platform) (st : Straps),
    let s := State.resetWith p st
    (s.mode = if st.mode then .key16 else .key8) ∧ (s.pol = if st.pol then .inverted else .activeHigh) ∧
    (s.backend = if st.backend then .hwassist else .bitbang) ∧ (s.n = if st.mode then 16 else 8) ∧
    s.cur = 0 ∧ s.prev = 0 ∧ s.pressSet = false ∧ s.releaseSet = false ∧ s.released = false ∧
    s.failed = st.acqFail ∧ s.errval = st.acqErr ∧ s.seq = .ready ∧ s.pstate = .idle ∧
    s.sckOe = (!st.acqFail) ∧ (st.backend = true → s.sckOut = s.idle) ∧ s.fifo = [] ∧
    s.eRun = (st.backend && !st.acqFail) ∧ s.eSeq = .hold ∧ s.eBit = 0 ∧ s.eAcc = 0) ∧
  (∀ s : State,
    (s.pstate = .sampleReady ↔ ∃ i, s.seq = .scan i ∨ s.seq = .evwait i) ∧
    (s.pstate = .idle ↔ s.seq = .ready ∨ ∃ i ph, s.seq = .acq i ph))

/-- R152: reset may come in any state, in the middle of a command too: the block's state is that of reset, an outstanding event is
withdrawn and no response is given. What is outside the block stays as it is (the model's own fields). It comes on the host's turn,
and where no turn is listed and no other agent can move. -/
def Obligations.ResetAtAnyTime : Prop :=
  ∀ (s : State) (st : Straps) (rest : List HostAct) (ts : List Agent),
    s.host = .reset st :: rest →
    (s.turns = .host :: ts ∨ (s.turns = [] ∧ ts = [] ∧ seqEnabled s = false ∧ engineEnabled s = false)) →
    step s = .next { State.resetWith s.plat st with
      host := rest, turns := ts, device := s.device, draws := s.draws, trace := s.trace, rspLog := s.rspLog,
      evLog := s.evLog }

/-! ### The whole machine -/

/-- R31 and what the procedures keep hold after reset with any straps and any well-formed parameters. -/
def Obligations.ResetMeetsInvariant : Prop :=
  ∀ (p : Platform) (st : Straps), p.wellFormed = true → Inv (State.resetWith p st)

/-- Every step, of whichever agent, keeps the invariant. -/
def Obligations.StepKeepsInvariant : Prop :=
  ∀ s t : State, Inv s → step s = .next t → Inv t

/-- From a state that meets the invariant no step is stuck, and the only refusal is an acknowledge of no event (R40, R43, R45, 70 R164). -/
def Obligations.InvariantStatesNeverStick : Prop :=
  ∀ s : State, Inv s →
    (∃ t, step s = .next t) ∨ (step s = .refused .ackWithoutEvent ∧ s.seq = .ready ∧ ∃ rest, s.host = .ack :: rest)

/-- What the clock wire shows after a reset, outright: nothing where the acquisition failed, `IDLE` on `HWASSIST` (R84; 1 exactly when
inverted, R16), on `BITBANG` what `SCK_RESET_LEVEL` says (R8, R149). And the clock invariant holds. -/
def Obligations.ResetMeetsClockInvariant : Prop :=
  ∀ (p : Platform) (st : Straps),
    let s := State.resetWith p st
    ClockInv s ∧
    (st.acqFail = true → s.wire = none) ∧
    (st.acqFail = false → st.backend = true → s.wire = some s.idle ∧ s.idle = st.pol) ∧
    (st.acqFail = false → st.backend = false → p.sckResetLevel = .low → s.wire = some false) ∧
    (st.acqFail = false → st.backend = false → p.sckResetLevel = .high → s.wire = some true) ∧
    (st.acqFail = false → st.backend = false → p.sckResetLevel = .undriven → s.wire = none)

/-- Every step keeps the wire at a level the procedures leave on it (40 R72 to R76, 41 R84 to R89): between two bit-bang polls it is at
`ACTIVE` or as reset left it, during the engine's settling wait at `HW_SETTLE_LEVEL`. -/
def Obligations.StepKeepsClockLevel : Prop :=
  ∀ s t : State, Inv s → ClockInv s → step s = .next t → ClockInv t

/-- R18, R148: only a reset rewrites the configuration, the failure flag and the error value; nothing rewrites the parameters. -/
def Obligations.OnlyResetWritesConfiguration : Prop :=
  ∀ s t : State, step s = .next t →
    t.plat = s.plat ∧
    ((t.mode = s.mode ∧ t.pol = s.pol ∧ t.backend = s.backend ∧ t.failed = s.failed ∧ t.errval = s.errval) ∨
      ∃ st rest, s.host = .reset st :: rest ∧ t.host = rest ∧ t.mode = KeyMode.ofStrap st.mode ∧
        t.pol = Polarity.ofStrap st.pol ∧ t.backend = Backend.ofStrap st.backend ∧ t.failed = st.acqFail ∧
        t.errval = st.acqErr)

/-- R31 (c), R102: `PREV` is written only by reset and by the end of a dispatch, as one copy of `CUR`; every dispatch ends so. -/
def Obligations.PrevIsWrittenOnlyAtScanEnd : Prop :=
  (∀ s t : State, step s = .next t →
    t.prev = s.prev ∨ (s.seq = .scan s.n ∧ t.prev = s.cur ∧ t.seq = .ready) ∨ 
      ∃ st rest, s.host = .reset st :: rest ∧ t.host = rest ∧ t.prev = 0) ∧
  (∀ s : State, s.seq = .scan s.n → ∃ t, seqStep s = .next t ∧ t.prev = s.cur ∧ t.cur = s.cur ∧ t.evLog = s.evLog ∧ t.seq = .ready)

/-- R123: after `TEARDOWN` no step performs a line operation or a queue operation, and only a reset that the host takes ends it. -/
def Obligations.ReleasedBlockTouchesNothing : Prop :=
  ∀ s t : State, Inv s → s.released = true → step s = .next t →
    t.trace = s.trace ∧ t.fifo = [] ∧ t.device = s.device ∧ t.evLog = s.evLog ∧
    ((t.released = true ∧ t.cur = s.cur ∧ t.prev = s.prev ∧ t.sckOe = false) ∨
      ∃ st rest, s.host = .reset st :: rest ∧ t.host = rest ∧ t.released = false ∧ t.cur = 0 ∧ t.prev = 0 ∧
        t.sckOe = (!st.acqFail) ∧ t.failed = st.acqFail)

/-- R136: an event leaves only from the scan of a `POLL` in progress, one at a time, and it reports a change of the bit it names. -/
def Obligations.EventsLeaveOnlyFromTheScan : Prop :=
  ∀ s t : State, step s = .next t →
    t.evLog = s.evLog ∨
    ∃ i e, s.seq = .scan i ∧ i < s.n ∧ t.seq = .evwait i ∧ t.evLog = s.evLog ++ [e] ∧ t.evPort = some e ∧
      evIndex e = i ∧ s.cur.getLsbD i ≠ s.prev.getLsbD i
end

