-- ==== Sys2Proof/Laws/PerInstr.lean ====
section
/-! SUPPORT. Facts about every command as syntax, one lemma a constructor. -/

namespace Sys2Proof.Laws

/-- The written mnemonic's row of the opcode map selects the encoded word (30_encoding.md R57). -/
def OpcodeRow.Statement (i : Instr) : Prop :=
  i.wellFormed = true → ∃ r ∈ opcodeMap, r.mnemonic = i.mnemonic ∧ r.selects (encode i) = true

theorem OpcodeRow.poll : OpcodeRow.Statement .poll := fun _ => ⟨⟨"POLL", 0x1000, 0xFFFF⟩, by decide, by decide, by decide⟩

theorem OpcodeRow.sample : OpcodeRow.Statement .sample :=
  fun _ => ⟨⟨"SAMPLE", 0x2000, 0xFFFF⟩, by decide, by decide, by decide⟩

theorem OpcodeRow.channel (idx : Nat) : OpcodeRow.Statement (.channel idx) := fun _ =>
  ⟨⟨"CHANNEL", 0x3000, 0xF000⟩, by decide, rfl, by
    have h : ∀ a : BitVec 12, (0x3#4 ++ a : BitVec 16) &&& 0xF000#16 = 0x3000#16 := by decide
    simpa [Sys2Proof.OpcodeRow.selects, encode, commandWord] using h (BitVec.ofNat 12 idx)⟩

theorem OpcodeRow.count : OpcodeRow.Statement .count :=
  fun _ => ⟨⟨"COUNT", 0x4000, 0xFFFF⟩, by decide, by decide, by decide⟩

theorem OpcodeRow.teardown : OpcodeRow.Statement .teardown :=
  fun _ => ⟨⟨"TEARDOWN", 0x5000, 0xFFFF⟩, by decide, by decide, by decide⟩

theorem OpcodeRow.setpress (en : Bool) : OpcodeRow.Statement (.setpress en) :=
  fun _ => ⟨⟨"SETPRESS", 0x6000, 0xFFFE⟩, by decide, rfl, by cases en <;> decide⟩

theorem OpcodeRow.setrelease (en : Bool) : OpcodeRow.Statement (.setrelease en) :=
  fun _ => ⟨⟨"SETRELEASE", 0x7000, 0xFFFE⟩, by decide, rfl, by cases en <;> decide⟩

end Sys2Proof.Laws
end

