-- ==== Sys2Proof/Tests/Slice0.lean ====
section
/-! SUPPORT. Tests on one step with results from 95_test_vectors.md or worked out from the rules, and a witness for the hypotheses of
every obligation that has some. -/

namespace Sys2Proof.Tests

open Sys2Proof Sys2Proof.Machine Sys2Proof.Safety

/-- A block after reset: strap bits `MODE`, `POL`, `BACKEND`, `ACQ_FAIL`, and `ERRVAL` 0xBEEF. -/
def block (mode pol backend fail : Bool) : State :=
  State.resetWith Platform.reference ⟨mode, pol, backend, fail, 0xBEEF⟩

/-- 16 keys, active-high, bit-bang. -/
def bb16 : State := block true false false false

/-- 8 keys, active-high, bit-bang. -/
def bb8 : State := block false false false false

/-- 8 keys, inverted, hardware-assisted. -/
def hw8 : State := block false true true false

/-- 16 keys, hardware-assisted. -/
def hw16 : State := block true false true false

/-- A block whose resources were not acquired. -/
def failed16 : State := block true false false true

/-- A field of the next state of an outcome. -/
def after {α : Type} (r : Result) (f : State → α) : Option α :=
  match r with
  | .next s => some (f s)
  | .fault _ => none
  | .refused _ => none

/-- The outcome is the given fault. -/
def faultOf (r : Result) : Option Fault :=
  match r with
  | .next _ => none
  | .fault f => some f
  | .refused _ => none

/-- The outcome is the given refusal. -/
def refusalOf (r : Result) : Option Refusal :=
  match r with
  | .next _ => none
  | .fault _ => none
  | .refused e => some e

/-! ### Well-formed terms, decoding, encoding (30_encoding.md; 95_test_vectors.md 2.1) -/

theorem test_channel_4096_is_ill_formed : (Instr.channel 4096).wellFormed = false := by decide
theorem test_channel_4095_is_well_formed : (Instr.channel 4095).wellFormed = true := by decide

theorem test_decode_poll : decode 0b0001000000000000#16 = .command .poll := by decide
theorem test_decode_sample : decode 0b0010000000000000#16 = .command .sample := by decide
theorem test_decode_channel_18 : decode 0b0011000000010010#16 = .command (.channel 18) := by decide
theorem test_decode_count : decode 0b0100000000000000#16 = .command .count := by decide
theorem test_decode_teardown : decode 0b0101000000000000#16 = .command .teardown := by decide
theorem test_decode_setpress_1 : decode 0b0110000000000001#16 = .command (.setpress true) := by decide
theorem test_decode_setrelease_0 : decode 0b0111000000000000#16 = .command (.setrelease false) := by decide

/-- The reserved words of 2.1. -/
theorem test_decode_reserved :
    ([0x0000, 0x0FFF, 0x1001, 0x1800, 0x2FFF, 0x4008, 0x5001, 0x6002, 0x6003, 0x6801, 0x7002, 0x7FFE, 0x8000, 0xFFFF].map
      fun w => decodeTableWord 16 w) = List.replicate 14 none := by decide

/-- The round trips of 2.1. -/
theorem test_encode : encode (.channel 18) = 0x3012#16 ∧ encode (.setrelease true) = 0x7001#16 := by decide

/-! ### Reset (10_state.md R32) -/

theorem test_reset_first_step : after (step (State.reset.withFetchWord 16 0x4000)) State.rspLog = some [0x00010#19] := by decide

theorem test_reset_failed : failed16.sckOe = false ∧ failed16.eRun = false ∧ failed16.errval = 0xBEEF#16 := by decide

/-! ### The accessors (vectors A1, A2) -/

theorem test_sample : after (exec .sample { bb16 with cur := 0x8102 }) State.rspLog = some [0x08102#19] := by decide

theorem test_channel_wraps_16 :
    ([0, 1, 15, 16, 24, 4094, 4095].map fun i => after (exec (.channel i) { bb16 with cur := 0x8102 }) State.rspLog) =
      ([0, 1, 1, 0, 1, 0, 1] : List RspWord).map fun r => some [r] := by decide

theorem test_channel_wraps_8 :
    ([0, 1, 7, 8, 4095].map fun i => after (exec (.channel i) { bb8 with cur := 0x0081 }) State.rspLog) =
      ([1, 0, 1, 1, 1] : List RspWord).map fun r => some [r] := by decide

theorem test_count : after (exec .count bb8) State.rspLog = some [0x00008#19] := by decide

/-- 60_exceptions.md R131. -/
theorem test_count_failed : after (exec .count failed16) State.rspLog = some [0x4BEEF#19] := by decide

/-! ### Lifecycle -/

theorem test_setpress : after (exec (.setpress true) bb16) (fun t => (t.pressSet, t.releaseSet)) = some (true, false) := by decide

theorem test_setrelease :
    after (exec (.setrelease false) { bb16 with pressSet := true, releaseSet := true }) (fun t => (t.pressSet, t.releaseSet)) =
      some (true, false) := by decide

/-- 45_lifecycle.md R122 on the engine's backend: pins freed, engine stopped where it is, queue discarded, `CUR` kept. -/
theorem test_teardown_engine :
    after (exec .teardown { hw8 with cur := 3, fifo := [1, 2], eSeq := .capt }) (fun t => (t.sckOe, t.eRun, t.fifo)) =
      some (false, false, []) ∧
    after (exec .teardown { hw8 with cur := 3, fifo := [1, 2], eSeq := .capt }) (fun t => (t.eSeq, t.released, t.cur)) =
      some (.capt, true, 3) := by decide

theorem test_teardown_busy :
    after (exec .teardown { bb8 with seq := .evwait 7 }) (fun t => (t.released, t.rspLog)) = some (false, [0x30000#19]) := by decide

/-! ### Poll (vector H5; 44_poll.md R114) -/

theorem test_poll_takes_oldest :
    after (exec .poll { hw8 with cur := 0x0011, prev := 0x0011, fifo := [0x0081, 0x0080, 0x0000] })
      (fun t => (t.cur, t.prev, t.fifo, t.seq)) = some (0x0081, 0x0011, [0x0080, 0x0000], .scan 0) := by decide

theorem test_poll_released :
    after (exec .poll { bb8 with released := true }) (fun t => (t.seq, t.rspLog)) = some (.ready, [0x20000#19]) := by decide

/-! ### The sequencer and the engine, one step -/

/-- The last bit of an 8-bit word goes to `FINAL`, whose step leaves the clock at `ACTIVE` (46 R168). -/
theorem test_final_leaves_active :
    after (seqStep { bb8 with seq := .acq 8 .final, acc := 5 }) (fun t => (t.cur, t.sckOut, t.seq)) =
      some (5, true, .scan 0) := by decide

/-- A low level leaves the accumulator's bit, polarity does not touch data (vector B7). -/
theorem test_capture :
    after (seqStep { block false true false false with seq := .acq 7 .capt, device := [true, false], acc := 1 })
      (fun t => (t.acc, t.device, t.trace)) = some (0x81, [false], [.sdo true]) := by decide

/-- `SETTLE` writes `HW_SETTLE_LEVEL`, here `IDLE` of the inverted polarity (vector H1). -/
theorem test_settle :
    after (engineStep { hw8 with eSeq := .settle }) (fun t => (t.sckOut, t.eSeq)) = some (true, .hold) := by decide

/-- Vector H6: the stalled push becomes enabled by a pop. -/
theorem test_stall :
    engineEnabled { hw8 with eSeq := .emit, fifo := [1, 2] } = false ∧
      engineEnabled { hw8 with eSeq := .emit, fifo := [2] } = true := by decide

/-- Vectors E10 and E12. -/
theorem test_dispatch_events :
    dispatchEvents true true 0x0080 0x0001 8 = [0x10, 0x07] ∧
      dispatchEvents true true 0xAAAA 0x5555 16 =
        [0x10, 0x01, 0x12, 0x03, 0x14, 0x05, 0x16, 0x07, 0x18, 0x09, 0x1A, 0x0B, 0x1C, 0x0D, 0x1E, 0x0F] := by decide

/-- The stops outside the invariant, by name. -/
theorem test_stops :
    faultOf (fifoPop hw8 |> fun r => andThen r fun p => .next p.2) = some .popOfEmptyQueue ∧
      faultOf (seqStep { bb8 with seq := .acq 0 .start, sckOe := false }) = some .clockNotDriven ∧
      faultOf (seqStep { bb8 with seq := .acq 0 .capt, sdoIn := false }) = some .dataLineReleased ∧
      faultOf (seqStep { bb8 with seq := .scan 9 }) = some .badPosition ∧
      refusalOf (step { bb8 with host := [.ack] }) = some .ackWithoutEvent := by decide

/-! ### Witnesses: the hypotheses of each obligation are met, each clause at a boundary -/

/-- A waiting dispatcher in the middle of a scan meets the invariant. -/
theorem inv_waiting :
    Inv { bb8 with
      seq := .evwait 7, cur := 0x80, evPort := some 0x17, sckOut := true, sckUnset := false, host := [.ack], turns := [.host] } := by
  constructor <;> decide

/-- A released block meets the invariant. -/
theorem inv_released : Inv { hw8 with released := true, sckOe := false, sdoIn := false, eRun := false, host := [.ack] } := by
  constructor <;> decide

/-- A block that failed at reset meets the invariant. -/
theorem inv_failed : Inv failed16 := by constructor <;> decide

theorem witness_DecodeOfEncodeIsInstruction : (Instr.channel 4095).wellFormed = true := by decide

theorem witness_EncodeOfDecodeIsWord : decode 0x3FFF#16 = .command (.channel 4095) := by decide

theorem witness_DecodeFollowsOpcodeMap :
    decode 0x7001#16 = .command (.setrelease true) ∧ decode 0x8000#16 = .reserved .reservedOp ∧
      ∃ r ∈ opcodeMap, r.selects 0x7001#16 = true := by decide

theorem witness_StepRunsPresentedCommand :
    (∃ (s : State) (rest : List HostAct) (ts : List Agent), s.host = .cmd 0x3FFF#16 :: rest ∧ s.portOpen = true ∧
      decode 0x3FFF#16 = .command (.channel 4095) ∧ s.turns = .host :: ts) ∧
    (∃ (s : State) (rest : List HostAct) (ts : List Agent), s.host = .cmd 0xFFFF#16 :: rest ∧ s.portOpen = true ∧
      decode 0xFFFF#16 = .reserved .reservedOp ∧ s.turns = .host :: ts ∧ s.failed = true) ∧
    (∃ (s : State) (rest : List HostAct), s.host = .cmd 0x1001#16 :: rest ∧ s.portOpen = true ∧
      decode 0x1001#16 = .reserved .mustBeZero ∧ s.turns = [] ∧ engineEnabled s = false) :=
  ⟨⟨{ bb16 with host := [.cmd 0x3FFF#16], turns := [.host] }, [], [], rfl, rfl, by decide, rfl⟩,
    ⟨{ failed16 with host := [.cmd 0xFFFF#16], turns := [.host, .engine] }, [], [.engine], rfl, rfl, by decide, rfl, rfl⟩,
    { bb16 with host := [.cmd 0x1001#16, .ack] }, [.ack], rfl, rfl, by decide, rfl, rfl⟩

/-- A reserved word presented to the machine is answered `IllegalCommand` (R59, R130). -/
theorem test_step_answers_reserved_word :
    after (step { bb16 with host := [.cmd 0x1001#16] }) (fun t => (t.rspLog, t.host)) = some ([0x10000#19], []) := by decide

theorem witness_FetchedWordIsExecuted :
    State.reset.portOpen = true ∧ decodeTableWord 16 0x3FFF = some (.channel 4095) := by decide

theorem witness_CommandWaitsWhileBlockIsBusy :
    (∃ (s : State) (w : CmdWord) (rest : List HostAct) (ts : List Agent), s.host = .cmd w :: rest ∧ s.portOpen = false ∧
      s.turns = .host :: ts ∧ s.seq = .acq 16 .final) ∧
    (∃ (s : State) (w : CmdWord) (rest : List HostAct) (ts : List Agent), s.host = .cmd w :: rest ∧ s.portOpen = false ∧
      s.turns = .host :: ts ∧ s.seq = .scan 0) :=
  ⟨⟨{ bb16 with host := [.cmd 0x2000#16], turns := [.host], seq := .acq 16 .final }, 0x2000#16, [], [], rfl, rfl, rfl, rfl⟩,
    { bb16 with host := [.cmd 0#16], turns := [.host], seq := .scan 0 }, 0#16, [], [], rfl, rfl, rfl, rfl⟩

theorem witness_ExecRefusesOnClosedPort : ({ bb8 with seq := .scan 8 } : State).portOpen = false := by decide

theorem witness_UnscheduledStepMovesTheOneAgent :
    (∃ s : State, s.turns = .host :: [.engine]) ∧ (∃ s : State, s.turns = .sequencer :: []) ∧
    (∃ s : State, s.turns = .engine :: []) ∧
    (∃ s : State, s.turns = [] ∧ hostEnabled s = true ∧ seqEnabled s = false ∧ engineEnabled s = false) ∧
    (∃ s : State, s.turns = [] ∧ hostEnabled s = false ∧ seqEnabled s = true ∧ engineEnabled s = false) ∧
    (∃ s : State, s.turns = [] ∧ hostEnabled s = false ∧ seqEnabled s = false ∧ engineEnabled s = true) ∧
    (∃ s : State, s.turns = [] ∧ hostEnabled s = false ∧ seqEnabled s = false ∧ engineEnabled s = false) ∧
    (∃ s : State, s.turns = [] ∧ 2 ≤ (enabledAgents s).length) :=
  ⟨⟨{ bb8 with turns := [.host, .engine] }, rfl⟩, ⟨{ bb8 with turns := [.sequencer] }, rfl⟩,
    ⟨{ hw8 with turns := [.engine] }, rfl⟩, ⟨{ bb8 with host := [.cmd 0x2000#16] }, by decide⟩,
    ⟨{ bb8 with seq := .acq 0 .start, host := [.ack] }, by decide⟩, ⟨hw8, by decide⟩, ⟨State.reset, by decide⟩,
    { hw8 with seq := .scan 0 }, by decide⟩

/-- With no turn and no host action the engine's first action is `HOLD`: the clock at `IDLE`, here 1 (41 R84). -/
theorem test_step_moves_engine : after (step hw8) (fun t => (t.eSeq, t.wire)) = some (.rise, some true) := by decide

theorem witness_AcknowledgeResumesScan :
    (∃ (s : State) (rest : List HostAct) (ts : List Agent), s.host = .ack :: rest ∧ s.seq = .evwait 15 ∧ s.turns = .host :: ts) ∧
    (∃ (s : State) (rest : List HostAct), s.host = .ack :: rest ∧ s.seq = .evwait 0 ∧ s.turns = [] ∧ engineEnabled s = false) :=
  ⟨⟨{ bb16 with host := [.ack], turns := [.host], seq := .evwait 15, evPort := some 0x1F }, [], [], rfl, rfl, rfl⟩,
    { bb8 with host := [.ack], seq := .evwait 0, evPort := some 0x10 }, [], rfl, rfl, rfl, rfl⟩

theorem witness_SampleAnswersCurrentSample :
    (∃ s : State, s.portOpen = true ∧ s.failed = false ∧ s.seq = .evwait 0 ∧ (0xFFF : BitVec 12) ≠ 0) ∧
    (∃ s : State, s.portOpen = true ∧ s.failed = true) ∧
    (∃ s : State, s.portOpen = true ∧ Inv s ∧ s.mode = .key8) :=
  ⟨⟨{ bb8 with seq := .evwait 0 }, by decide⟩, ⟨failed16, by decide⟩, _, by decide, inv_waiting, rfl⟩

theorem witness_ChannelAnswersBitModuloCount :
    (failed16.portOpen = true ∧ failed16.failed = true) ∧ (bb8.portOpen = true ∧ bb8.failed = false ∧ bb8.mode = .key8) ∧
      (bb16.portOpen = true ∧ bb16.failed = false ∧ bb16.mode = .key16) := by decide

theorem witness_CountAnswersChannelCount :
    (failed16.portOpen = true ∧ failed16.failed = true) ∧ (bb8.portOpen = true ∧ bb8.failed = false ∧ bb8.mode = .key8) ∧
      (bb16.portOpen = true ∧ bb16.failed = false ∧ bb16.mode = .key16) := by decide

theorem witness_AccessorsAgree : bb16.portOpen = true ∧ bb16.failed = false ∧ 15 < bb16.n := by decide

theorem witness_SetPressWritesItsFlag :
    (bb8.portOpen = true ∧ bb8.failed = false ∧ (0x002#12).extractLsb' 1 11 ≠ 0) ∧
      (failed16.portOpen = true ∧ failed16.failed = true) := by decide

theorem witness_SetReleaseWritesItsFlag :
    (bb8.portOpen = true ∧ bb8.failed = false ∧ (0x800#12).extractLsb' 1 11 ≠ 0) ∧
      (failed16.portOpen = true ∧ failed16.failed = true) := by decide

theorem witness_TeardownReleasesResources :
    (∃ s : State, s.portOpen = true ∧ s.failed = true) ∧
    (∃ s : State, s.portOpen = true ∧ s.failed = false ∧ ∃ i, s.seq = .evwait i) ∧
    (∃ s : State, s.portOpen = true ∧ s.failed = false ∧ s.seq = .ready ∧ s.released = true) ∧
    (∃ s : State, s.portOpen = true ∧ s.failed = false ∧ s.seq = .ready ∧ s.released = false ∧ s.backend = .bitbang) ∧
    (∃ s : State, s.portOpen = true ∧ s.failed = false ∧ s.seq = .ready ∧ s.released = false ∧ s.backend = .hwassist) :=
  ⟨⟨failed16, by decide⟩, ⟨{ bb16 with seq := .evwait 15 }, rfl, rfl, 15, rfl⟩, ⟨{ bb16 with released := true }, by decide⟩,
    ⟨bb16, by decide⟩, hw16, by decide⟩

theorem witness_ReservedWordsAnswerIllegalCommand :
    decode 0x0FFF#16 = .reserved .reservedOp ∧ decode 0x8000#16 = .reserved .reservedOp ∧
      decode 0x1001#16 = .reserved .mustBeZero ∧ decode 0x7002#16 = .reserved .mustBeZero ∧
      bb8.portOpen = true ∧ bb8.failed = false := by decide

theorem witness_FailedBlockAnswersEveryWord :
    (failed16.portOpen = true ∧ failed16.failed = true) ∧ Inv failed16 ∧ (Straps.mk true false false true 0xBEEF).acqFail = true :=
  ⟨by decide, inv_failed, rfl⟩

theorem witness_OnlyPollFaultsAfterTeardown :
    ∃ s : State, s.seq = .ready ∧ s.failed = false ∧ s.released = true ∧ Instr.channel 4095 ≠ .poll :=
  ⟨{ bb8 with released := true }, by decide⟩

theorem witness_OnlyPollAndTeardownAreBusyInHandler :
    ∃ s : State, s.seq = .evwait 15 ∧ s.failed = false ∧ Instr.count ≠ .poll ∧ Instr.count ≠ .teardown :=
  ⟨{ bb16 with seq := .evwait 15 }, by decide⟩

theorem witness_FaultResponseIsWholeEffect :
    ∃ t, runWord 0x1000#16 { bb8 with released := true } = .next t ∧ t.rspLog = bb8.rspLog ++ [0x20000#19] ∧
      rspStatus 0x20000#19 ≠ 0#3 :=
  ⟨_, rfl, by decide, by decide⟩

theorem witness_OneResponsePerAcceptedWord :
    (∃ t, runWord 0xFFFF#16 bb8 = .next t ∧ t.seq = .ready) ∧ (∃ t, runWord 0x1000#16 bb8 = .next t ∧ t.seq = .acq 0 .start) ∧
      ∃ t, runWord 0x1000#16 { hw8 with fifo := [1] } = .next t ∧ t.seq = .scan 0 :=
  ⟨⟨_, rfl, rfl⟩, ⟨_, rfl, rfl⟩, _, rfl, rfl⟩

theorem witness_CommandFrame :
    (∃ t, runWord 0x1000#16 { hw8 with fifo := [1] } = .next t ∧ t.cur ≠ 0 ∧ t.fifo ≠ [1] ∧ t.seq ≠ .ready) ∧
    (∃ t, runWord 0x6001#16 bb8 = .next t ∧ t.pressSet ≠ bb8.pressSet) ∧
    (∃ t, runWord 0x7001#16 bb8 = .next t ∧ t.releaseSet ≠ bb8.releaseSet) ∧
    (∃ t, runWord 0x5000#16 hw8 = .next t ∧ t.released ≠ hw8.released ∧ t.sckOe ≠ hw8.sckOe ∧ t.sdoIn ≠ hw8.sdoIn ∧
      t.eRun ≠ hw8.eRun) :=
  ⟨⟨_, rfl, by decide⟩, ⟨_, rfl, by decide⟩, ⟨_, rfl, by decide⟩, _, rfl, by decide⟩

theorem witness_PollStartsBitBangAcquisition :
    bb8.seq = .ready ∧ bb8.failed = false ∧ bb8.released = false ∧ bb8.backend = .bitbang := by decide

theorem witness_PollTakesOldestQueuedWord :
    ∃ s : State, s.seq = .ready ∧ s.failed = false ∧ s.released = false ∧ s.backend = .hwassist ∧ s.fifo = 0x81 :: [] :=
  ⟨{ hw8 with fifo := [0x81] }, by decide⟩

theorem witness_PollOfEmptyQueueAnswersFalse :
    hw8.seq = .ready ∧ hw8.failed = false ∧ hw8.released = false ∧ hw8.backend = .hwassist ∧ hw8.fifo = [] := by decide

theorem witness_AcquisitionRows :
    (∃ s : State, s.sckOe = true ∧ s.sdoIn = true ∧ s.seq = .acq 0 .start) ∧
    (∃ s : State, s.sckOe = true ∧ s.sdoIn = true ∧ s.seq = .acq 7 .rise ∧ 7 < s.n) ∧
    (∃ s : State, s.sckOe = true ∧ s.sdoIn = true ∧ s.seq = .acq 15 .capt ∧ 15 < s.n ∧ s.device = true :: []) ∧
    (∃ s : State, s.sckOe = true ∧ s.sdoIn = true ∧ s.seq = .acq 0 .capt ∧ 0 < s.n ∧ s.device = []) ∧
    (∃ s : State, s.sckOe = true ∧ s.sdoIn = true ∧ s.seq = .acq 7 .fall ∧ 7 < s.n ∧ ¬ 7 + 1 < s.n) ∧
    (∃ s : State, s.sckOe = true ∧ s.sdoIn = true ∧ s.seq = .acq 6 .fall ∧ 6 + 1 < s.n) ∧
    (∃ s : State, s.sckOe = true ∧ s.sdoIn = true ∧ s.seq = .acq s.n .final) :=
  ⟨⟨{ bb8 with seq := .acq 0 .start }, by decide⟩, ⟨{ bb8 with seq := .acq 7 .rise }, by decide⟩,
    ⟨{ bb16 with seq := .acq 15 .capt, device := [true] }, by decide⟩, ⟨{ bb8 with seq := .acq 0 .capt }, by decide⟩,
    ⟨{ bb8 with seq := .acq 7 .fall }, by decide⟩, ⟨{ bb8 with seq := .acq 6 .fall }, by decide⟩,
    { bb8 with seq := .acq 8 .final }, by decide⟩

/-- Eight levels, high at pulses 0 and 2 (vector B1). -/
def levels8 : List Level := [true, false, true, false, false, false, false, false]

theorem witness_AcquisitionSamplesTheLine :
    ∃ s : State, s.seq = .acq 0 .start ∧ s.sckOe = true ∧ s.sdoIn = true ∧ s.device = levels8 ++ [true] ∧ levels8.length = s.n :=
  ⟨{ bb8 with seq := .acq 0 .start, device := levels8 ++ [true] }, by decide⟩

theorem witness_AcquisitionSamplesFreeLevels :
    ∃ s : State, s.seq = .acq 0 .start ∧ s.sckOe = true ∧ s.sdoIn = true ∧ s.device = [] :=
  ⟨{ bb16 with seq := .acq 0 .start }, by decide⟩

theorem witness_ClockPatternIgnoresData :
    ∃ s : State, s.seq = .acq 0 .start ∧ s.sckOe = true ∧ s.sdoIn = true ∧ levels8.length = s.n ∧
      (List.replicate 8 false).length = s.n ∧ levels8 ≠ List.replicate 8 false :=
  ⟨{ bb8 with seq := .acq 0 .start }, by decide⟩

theorem witness_EveryPulseRisesFromIdle :
    ∃ s t : State, ClockInv s ∧ s.backend = .bitbang ∧ s.seq = .acq 7 .rise ∧ seqStep s = .next t :=
  ⟨{ bb8 with seq := .acq 7 .rise, sckUnset := false }, _, ⟨by decide⟩, rfl, rfl, rfl⟩

theorem witness_ScanRows :
    (∃ s : State, s.seq = .scan 7 ∧ 7 < s.n ∧ s.cur.getLsbD 7 = s.prev.getLsbD 7) ∧
    (∃ s : State, s.seq = .scan 0 ∧ 0 < s.n ∧ s.cur.getLsbD 0 = true ∧ s.prev.getLsbD 0 = false ∧ s.pressSet = false) ∧
    (∃ s : State, s.seq = .scan 0 ∧ 0 < s.n ∧ s.cur.getLsbD 0 = false ∧ s.prev.getLsbD 0 = true ∧ s.releaseSet = false) ∧
    (∃ s : State, s.seq = .scan 15 ∧ 15 < s.n ∧ s.cur.getLsbD 15 = true ∧ s.prev.getLsbD 15 = false ∧ s.pressSet = true) ∧
    (∃ s : State, s.seq = .scan 7 ∧ 7 < s.n ∧ s.cur.getLsbD 7 = false ∧ s.prev.getLsbD 7 = true ∧ s.releaseSet = true) ∧
    (∃ s : State, s.seq = .scan s.n) :=
  ⟨⟨{ bb8 with seq := .scan 7 }, by decide⟩, ⟨{ bb8 with seq := .scan 0, cur := 1 }, by decide⟩,
    ⟨{ bb8 with seq := .scan 0, prev := 1 }, by decide⟩,
    ⟨{ bb16 with seq := .scan 15, cur := 0x8000, pressSet := true }, by decide⟩,
    ⟨{ bb8 with seq := .scan 7, prev := 0x80, releaseSet := true }, by decide⟩, { bb8 with seq := .scan 8 }, by decide⟩

theorem witness_DispatchEmitsEveryChange :
    ∃ s : State, s.seq = .scan 0 ∧ s.evPort = none ∧ dispatchEvents s.pressSet s.releaseSet s.prev s.cur s.n = [0x10, 0x07] :=
  ⟨{ bb8 with seq := .scan 0, prev := 0x80, cur := 0x01, pressSet := true, releaseSet := true }, by decide⟩

theorem witness_DispatchIndicesIncrease :
    (0x1F : EvWord) ∈ dispatchEvents true true 0x0000 0x8000 KeyMode.key16.channels ∧
      (0x07 : EvWord) ∈ dispatchEvents true true 0x0080 0x0000 KeyMode.key8.channels := by decide

theorem witness_DispatchEventsAreTheDifferences : 7 < KeyMode.key8.channels ∧ 15 < KeyMode.key16.channels := by decide

theorem witness_EqualSamplesDispatchNothing : ∃ s : State, s.seq = .scan 0 ∧ s.cur = s.prev :=
  ⟨{ bb8 with seq := .scan 0, cur := 5, prev := 5 }, by decide⟩

theorem witness_PresenceIsTestedAtTheBit :
    ∃ s : State, s.seq = .evwait 14 ∧ s.failed = false ∧ 14 + 1 < s.n ∧ s.cur.getLsbD 15 = true ∧ s.prev.getLsbD 15 = false :=
  ⟨{ bb16 with seq := .evwait 14, cur := 0xC000 }, by decide⟩

theorem witness_BitBangPollEndToEnd :
    ∃ s : State, s.backend = .bitbang ∧ s.seq = .ready ∧ s.failed = false ∧ s.released = false ∧ s.sckOe = true ∧
      s.sdoIn = true ∧ s.evPort = none ∧ s.turns = [] ∧ s.device = levels8 ++ [true] ∧ levels8.length = s.n ∧
      noReset [.ack] = true ∧
      s.host = .cmd 0x1000#16 ::
        (List.replicate (dispatchEvents s.pressSet s.releaseSet s.prev (sampleWord levels8) s.n).length .ack ++ [.ack]) :=
  ⟨{ bb8 with pressSet := true, device := levels8 ++ [true], host := [.cmd 0x1000#16, .ack, .ack, .ack] }, by decide⟩

theorem witness_QueuedPollEndToEnd :
    ∃ s : State, s.backend = .hwassist ∧ s.seq = .ready ∧ s.failed = false ∧ s.released = false ∧ s.evPort = none ∧
      s.fifo = 0x81 :: [0x80] :=
  ⟨{ hw8 with fifo := [0x81, 0x80] }, by decide⟩

theorem witness_EngineRoundQueuesOneWord :
    ∃ s : State, engineLive s = true ∧ s.eSeq = .hold ∧ s.sckOe = true ∧ s.sdoIn = true ∧
      s.fifo.length < s.plat.fifoDepth ∧ s.device = levels8 ++ [true] ∧ levels8.length = s.n :=
  ⟨{ hw8 with fifo := [1], device := levels8 ++ [true] }, by decide⟩

theorem witness_EngineRows :
    (∃ s : State, engineLive s = true ∧ s.sckOe = true ∧ s.sdoIn = true ∧ s.eSeq = .hold) ∧
    (∃ s : State, engineLive s = true ∧ s.sckOe = true ∧ s.sdoIn = true ∧ s.eSeq = .rise ∧ s.eBit = 7 ∧ s.eBit < s.n) ∧
    (∃ s : State, engineLive s = true ∧ s.sckOe = true ∧ s.sdoIn = true ∧ s.eSeq = .capt ∧ s.eBit = 15 ∧ s.eBit < s.n ∧
      s.device = false :: []) ∧
    (∃ s : State, engineLive s = true ∧ s.sckOe = true ∧ s.sdoIn = true ∧ s.eSeq = .capt ∧ s.eBit = 0 ∧ s.eBit < s.n ∧
      s.device = []) ∧
    (∃ s : State, engineLive s = true ∧ s.sckOe = true ∧ s.sdoIn = true ∧ s.eSeq = .fall ∧ s.eBit < s.n ∧ ¬ s.eBit + 1 < s.n) ∧
    (∃ s : State, engineLive s = true ∧ s.sckOe = true ∧ s.sdoIn = true ∧ s.eSeq = .fall ∧ s.eBit + 1 < s.n) ∧
    (∃ s : State, engineLive s = true ∧ s.sckOe = true ∧ s.sdoIn = true ∧ s.eSeq = .settle) :=
  ⟨⟨hw8, by decide⟩, ⟨{ hw8 with eSeq := .rise, eBit := 7 }, by decide⟩,
    ⟨{ hw16 with eSeq := .capt, eBit := 15, device := [false] }, by decide⟩, ⟨{ hw8 with eSeq := .capt }, by decide⟩,
    ⟨{ hw8 with eSeq := .fall, eBit := 7 }, by decide⟩, ⟨{ hw8 with eSeq := .fall, eBit := 6 }, by decide⟩,
    { hw8 with eSeq := .settle }, by decide⟩

theorem witness_EngineRoundSamplesFreeLevels :
    engineLive hw16 = true ∧ hw16.eSeq = .hold ∧ hw16.sckOe = true ∧ hw16.sdoIn = true ∧
      hw16.fifo.length < hw16.plat.fifoDepth ∧ hw16.device = [] := by decide

theorem witness_EngineRoundAtFullQueue :
    (∃ s : State, engineLive s = true ∧ s.eSeq = .hold ∧ s.sckOe = true ∧ s.sdoIn = true ∧ s.plat.fifoDepth ≤ s.fifo.length ∧
      s.device = levels8 ++ [true] ∧ levels8.length = s.n ∧ s.plat.fullPolicy = .stall) ∧
    (∃ s : State, engineLive s = true ∧ s.eSeq = .hold ∧ s.sckOe = true ∧ s.sdoIn = true ∧ s.plat.fifoDepth ≤ s.fifo.length ∧
      s.device = levels8 ++ [] ∧ levels8.length = s.n ∧ s.plat.fullPolicy = .dropNew) :=
  ⟨⟨{ hw8 with fifo := [1, 2], device := levels8 ++ [true] }, by decide⟩,
    { hw8 with fifo := [1, 2], device := levels8, plat := { Platform.reference with fullPolicy := .dropNew } }, by decide⟩

theorem witness_BackendsAreBitCompatible :
    ∃ s e : State, s.seq = .acq 0 .start ∧ s.sckOe = true ∧ s.sdoIn = true ∧ s.device = levels8 ++ [] ∧ levels8.length = s.n ∧
      engineLive e = true ∧ e.eSeq = .hold ∧ e.sckOe = true ∧ e.sdoIn = true ∧ e.fifo.length < e.plat.fifoDepth ∧
      e.device = levels8 ++ [true] ∧ e.n = s.n :=
  ⟨{ bb8 with seq := .acq 0 .start, device := levels8 }, { hw8 with device := levels8 ++ [true] }, by decide⟩

theorem witness_EmitPushesHoldsOrDrops :
    (∃ s : State, engineLive s = true ∧ s.eSeq = .emit ∧ s.fifo.length < s.plat.fifoDepth ∧
      s.sckOe = true ∧ ClockInv s) ∧
    (∃ s : State, engineLive s = true ∧ s.eSeq = .emit ∧ s.plat.fifoDepth ≤ s.fifo.length ∧ s.plat.fullPolicy = .stall) ∧
    (∃ s : State, engineLive s = true ∧ s.eSeq = .emit ∧ s.plat.fifoDepth ≤ s.fifo.length ∧ s.plat.fullPolicy = .dropNew) :=
  ⟨⟨{ hw8 with eSeq := .emit, fifo := [1] }, rfl, rfl, by decide, rfl, ⟨by decide⟩⟩, ⟨{ hw8 with eSeq := .emit, fifo := [1, 2] }, by decide⟩,
    { hw8 with eSeq := .emit, fifo := [1, 2], plat := { Platform.reference with fullPolicy := .dropNew } }, by decide⟩

theorem witness_EngineFrame :
    (∃ t, engineStep { hw8 with eSeq := .emit } = .next t ∧ t.fifo ≠ hw8.fifo) ∧
      ∃ t, engineStep bb8 = .next t ∧ engineLive bb8 = false :=
  ⟨⟨_, rfl, by decide⟩, _, rfl, by decide⟩

theorem witness_PushCommutesWithPoll :
    ∃ s a b : State, s.seq = .ready ∧ s.failed = false ∧ s.released = false ∧ s.backend = .hwassist ∧ s.fifo ≠ [] ∧
      s.eSeq = .emit ∧ s.fifo.length < s.plat.fifoDepth ∧ engineStep s = .next a ∧ exec .poll s = .next b ∧ a.fifo = [1, 7] :=
  ⟨{ hw8 with eSeq := .emit, eAcc := 7, fifo := [1] }, _, _, rfl, rfl, rfl, rfl, by decide, rfl, by decide, rfl, rfl, by decide⟩

theorem witness_ScanCommutesWithEngine :
    ∃ s a b : State, s.seq = .scan 8 ∧ engineStep s = .next a ∧ seqStep s = .next b ∧ a.eSeq = .rise ∧ b.seq = .ready :=
  ⟨{ hw8 with seq := .scan 8 }, _, _, rfl, rfl, rfl, rfl, rfl⟩

theorem witness_ResetAtAnyTime :
    (∃ (s : State) (st : Straps) (rest : List HostAct) (ts : List Agent),
      s.host = .reset st :: rest ∧ s.turns = .host :: ts ∧ s.seq = .evwait 3) ∧
    (∃ (s : State) (st : Straps) (rest : List HostAct),
      s.host = .reset st :: rest ∧ s.turns = [] ∧ seqEnabled s = false ∧ engineEnabled s = false) :=
  ⟨⟨{ bb8 with host := [.reset Straps.reference], turns := [.host], seq := .evwait 3 }, Straps.reference, [], [], rfl, rfl, rfl⟩,
    { bb8 with host := [.reset Straps.reference] }, Straps.reference, [], rfl, rfl, rfl, rfl⟩

theorem witness_ResetLeavesSpecifiedValues :
    (∃ s : State, s.seq = .scan 16) ∧ (∃ s : State, s.seq = .evwait 0) ∧ (∃ s : State, s.seq = .acq 0 .start) :=
  ⟨⟨{ bb16 with seq := .scan 16 }, rfl⟩, ⟨{ bb8 with seq := .evwait 0 }, rfl⟩, { bb8 with seq := .acq 0 .start }, rfl⟩

/-- Each case of the wire after a reset: failed, engine of both polarities, the three reset levels. -/
theorem witness_ResetMeetsClockInvariant :
    failed16.wire = none ∧ hw8.wire = some true ∧ hw16.wire = some false ∧
      ([ResetLevel.low, .high, .undriven].map fun l =>
        (State.resetWith { Platform.reference with sckResetLevel := l } Straps.reference).wire) =
        [some false, some true, none] := by decide

theorem witness_ResetMeetsInvariant : Platform.reference.wellFormed = true := by decide

theorem witness_StepKeepsInvariant : ∃ s t : State, Inv s ∧ step s = .next t ∧ t.seq = .scan 8 :=
  ⟨_, _, inv_waiting, rfl, rfl⟩

theorem witness_InvariantStatesNeverStick : (∃ s : State, Inv s ∧ s.seq = .evwait 7) ∧ (∃ s : State, Inv s ∧ s.seq = .ready) :=
  ⟨⟨_, inv_waiting, rfl⟩, _, inv_released, rfl⟩

theorem witness_StepKeepsClockLevel : ∃ s t : State, Inv s ∧ ClockInv s ∧ step s = .next t ∧ s.sckOe = true ∧ clockWires s = [some true] :=
  ⟨_, _, inv_waiting, ⟨by decide⟩, rfl, rfl, rfl⟩

theorem witness_OnlyResetWritesConfiguration :
    (∃ t, step { bb8 with host := [.reset Straps.reference] } = .next t ∧ t.mode ≠ bb8.mode) ∧
      ∃ t, step { bb8 with host := [.cmd 0x2000#16] } = .next t ∧ t.mode = bb8.mode :=
  ⟨⟨_, rfl, by decide⟩, _, rfl, by decide⟩

theorem witness_PrevIsWrittenOnlyAtScanEnd :
    (∃ t, step { bb8 with seq := .scan 8, cur := 5 } = .next t ∧ t.prev = 5) ∧
      ∃ t, step { bb8 with prev := 5, cur := 5, host := [.reset Straps.reference] } = .next t ∧ t.prev = 0 :=
  ⟨⟨_, rfl, by decide⟩, _, rfl, by decide⟩

theorem witness_ReleasedBlockTouchesNothing :
    (∃ s t : State, Inv s ∧ s.released = true ∧ step s = .next t ∧ t.released = false) ∧
    ∃ s t : State, Inv s ∧ s.released = true ∧ step s = .next t ∧ t.rspLog = [0x20000#19] :=
  ⟨⟨{ hw8 with released := true, sckOe := false, sdoIn := false, eRun := false, host := [.reset Straps.reference] }, _,
    (by constructor <;> decide), rfl, rfl, rfl⟩,
    { hw8 with released := true, sckOe := false, sdoIn := false, eRun := false, host := [.cmd 0x1000#16] }, _,
    (by constructor <;> decide), rfl, rfl, by decide⟩

theorem witness_EventsLeaveOnlyFromTheScan :
    ∃ s t : State, step s = .next t ∧ s.seq = .scan 7 ∧ t.evLog = s.evLog ++ [0x17] :=
  ⟨{ bb8 with seq := .scan 7, cur := 0x80, pressSet := true }, _, rfl, rfl, by decide⟩

end Sys2Proof.Tests
end

section
/-! PROOFS. Who moves at a step (20_memory.md R50), one rule for each way `turns` and the enabled agents can stand. -/

namespace Sys2Proof.Proofs

open Sys2Proof.Machine

/-- The agent at the head of `turns` moves and its turn is taken. -/
theorem step_of_turns_cons {s : State} {a : Agent} {ts : List Agent} (h : s.turns = a :: ts) :
    step s = agentTurn a { s with turns := ts } := by
  unfold step nextTurn
  rw [h]

theorem step_of_turns_nil {s : State} (h : s.turns = []) : step s = unscheduledTurn s := by
  unfold step nextTurn
  rw [h]

/-- With no turn listed and no agent enabled the machine waits (70 R164). -/
theorem step_of_no_agent {s : State} (ht : s.turns = []) (h : enabledAgents s = []) : step s = .next s := by
  rw [step_of_turns_nil ht]
  unfold unscheduledTurn
  rw [h]

/-- With no turn listed the only enabled agent moves. -/
theorem step_of_one_agent {s : State} {a : Agent} (ht : s.turns = []) (h : enabledAgents s = [a]) :
    step s = agentTurn a s := by
  rw [step_of_turns_nil ht]
  unfold unscheduledTurn
  rw [h]

/-- With no turn listed and several agents enabled the free value names the one that moves (log entry 2). -/
theorem step_of_several_agents {s : State} (ht : s.turns = []) (h : 2 ≤ (enabledAgents s).length) :
    step s = agentTurn (Config.freeTurn s.draws) { s with draws := s.draws + 1 } := by
  rw [step_of_turns_nil ht]
  unfold unscheduledTurn
  split
  next hnil => simp [hnil] at h
  next _ hone => simp [hone] at h
  next => rfl

/-- Settles O9: a listed turn names the mover, and without one the list of enabled agents does. -/
theorem unscheduledStepMovesTheOneAgent : Obligations.UnscheduledStepMovesTheOneAgent := by
  intro s ts
  refine ⟨step_of_turns_cons, step_of_turns_cons, step_of_turns_cons, fun ht => ⟨?_, ?_, ?_, ?_, ?_⟩⟩
  · intro hh hs he
    exact step_of_one_agent (a := .host) ht (by simp [enabledAgents, hh, hs, he])
  · intro hh hs he
    exact step_of_one_agent (a := .sequencer) ht (by simp [enabledAgents, hh, hs, he])
  · intro hh hs he
    exact step_of_one_agent (a := .engine) ht (by simp [enabledAgents, hh, hs, he])
  · intro hh hs he
    exact step_of_no_agent ht (by simp [enabledAgents, hh, hs, he])
  · intro h
    exact ⟨_, step_of_several_agents ht h⟩

end Sys2Proof.Proofs
end

section
/-! PROOFS. The clock wire after a reset (10_state.md R32, 70_reset_and_hazards.md R149, R151). -/

namespace Sys2Proof.Proofs

open Sys2Proof.Machine Sys2Proof.Safety

/-- A block that did not acquire its resources drives no clock (R151). -/
theorem resetWith_wire_of_acqFail (p : Platform) {st : Straps} (h : st.acqFail = true) :
    (State.resetWith p st).wire = none := by
  simp [State.wire, State.resetWith, h]

/-- A block that acquired its resources leaves the wire at rest, which is how it stands until the first clock write (R149). -/
theorem resetWith_wire_of_acquired (p : Platform) {st : Straps} (h : st.acqFail = false) :
    (State.resetWith p st).wire = restWire (State.resetWith p st) := by
  simp only [State.wire, restWire, State.resetWith, h]
  cases resetSckUnset p.sckResetLevel (Backend.ofStrap st.backend) <;> rfl

/-- The engine's clock rests at `IDLE` (41 R84). -/
theorem restWire_of_hwassist {s : State} (h : s.backend = .hwassist) : restWire s = some s.idle := by
  simp [restWire, h, resetSckUnset, resetSckOut, State.idle]

/-- The level `SCK_RESET_LEVEL` names for a bit-bang clock pad (00_scope.md R8); an undriven pad shows none (log entry 6). -/
def resetLevelWire : ResetLevel → Option Level
  | .low => some false
  | .high => some true
  | .undriven => none

/-- The bit-bang clock rests as `SCK_RESET_LEVEL` says. -/
theorem restWire_of_bitbang {s : State} (h : s.backend = .bitbang) :
    restWire s = resetLevelWire s.plat.sckResetLevel := by
  cases hl : s.plat.sckResetLevel <;> simp [restWire, h, hl, resetSckUnset, resetSckOut, resetLevelWire]

/-- Before the first clock write of either backend the wire may be at rest. -/
theorem restWire_mem_clockWires {s : State} (hq : s.seq = .ready) (he : s.eSeq = .hold) : restWire s ∈ clockWires s := by
  cases hb : s.backend
  case bitbang => simp [clockWires, hb, seqWires, hq]
  case hwassist => simp [clockWires, hb, engineWires, he]

/-- A reset meets the clock invariant: where it drives the clock, both agents stand before their first write. -/
theorem clockInv_resetWith (p : Platform) (st : Straps) : ClockInv (State.resetWith p st) where
  wire hoe := by
    have hacq : st.acqFail = false := by simpa [State.resetWith] using hoe
    rw [resetWith_wire_of_acquired p hacq]
    exact restWire_mem_clockWires rfl rfl

/-- Strap `POL` is the level of `IDLE` (R16, 30_encoding.md R65). -/
@[simp] theorem idle_ofStrap (b : Bool) : (Polarity.ofStrap b).idle = b := by
  cases b <;> rfl

/-- On strap `BACKEND` = 1 an acquired block's clock shows `IDLE` after reset. -/
theorem resetWith_wire_of_hwassist (p : Platform) {st : Straps} (h : st.acqFail = false) (hb : st.backend = true) :
    (State.resetWith p st).wire = some (State.resetWith p st).idle := by
  rw [resetWith_wire_of_acquired p h]
  exact restWire_of_hwassist (by simp [State.resetWith, Backend.ofStrap, hb])

/-- On strap `BACKEND` = 0 an acquired block's clock shows what `SCK_RESET_LEVEL` says after reset. -/
theorem resetWith_wire_of_bitbang (p : Platform) {st : Straps} (h : st.acqFail = false) (hb : st.backend = false) :
    (State.resetWith p st).wire = resetLevelWire p.sckResetLevel := by
  rw [resetWith_wire_of_acquired p h]
  exact restWire_of_bitbang (by simp [State.resetWith, Backend.ofStrap, hb])

/-- Settles O52: a reset leaves the wire at rest where it acquires the resources and undriven where it does not. -/
theorem resetMeetsClockInvariant : Obligations.ResetMeetsClockInvariant := by
  intro p st
  refine ⟨clockInv_resetWith p st, resetWith_wire_of_acqFail p, ?_, ?_, ?_, ?_⟩
  · intro h hb
    exact ⟨resetWith_wire_of_hwassist p h hb, idle_ofStrap st.pol⟩
  all_goals
    intro h hb hl
    rw [resetWith_wire_of_bitbang p h hb, hl]
    rfl

end Sys2Proof.Proofs
end

section
/-! PROOFS. Samples of `N` bits (10_state.md R19, 20_memory.md R38): what keeps a word narrow. -/

namespace Sys2Proof.Proofs

open Sys2Proof.Machine Sys2Proof.Safety

theorem n_le_sixteen (s : State) : s.n ≤ 16 := by
  unfold State.n
  cases s.mode <;> decide

theorem n_pos (s : State) : 0 < s.n := by
  unfold State.n
  cases s.mode <;> decide

@[simp] theorem narrow_zero (n : Nat) : narrow n 0 = true := by
  simp [narrow]

/-- A word is narrow when every bit at or above `n` is 0. -/
theorem narrow_iff {n : Nat} {w : Word} : narrow n w = true ↔ ∀ j, n ≤ j → w.getLsbD j = false := by
  rw [narrow, decide_eq_true_iff]
  constructor
  · intro h j hj
    exact Nat.testBit_lt_two_pow (h.trans_le (Nat.pow_le_pow_right (by decide) hj))
  · exact Nat.lt_pow_two_of_testBit w.toNat

/-- Writing one of the low `n` bits keeps a word narrow. -/
theorem narrow_writeBit {n i : Nat} {w : Word} (b : Bool) (hw : narrow n w = true) (hn : n ≤ 16) (hi : i < n) :
    narrow n (writeBit w i b) = true := by
  rw [narrow_iff] at *
  intro j hj
  rw [getLsbD_writeBit w i j b (by omega), if_neg (by omega)]
  exact hw j hj

theorem narrow_captureBit {n i : Nat} {w : Word} (b : Bool) (hw : narrow n w = true) (hn : n ≤ 16) (hi : i < n) :
    narrow n (captureBit w i b) = true := by
  unfold captureBit
  split
  · exact narrow_writeBit true hw hn hi
  · exact hw

end Sys2Proof.Proofs
end

section
/-! PROOFS. What a reset leaves (10_state.md R32), `PSTATE` at each position (R26), and the invariant after a reset. -/

namespace Sys2Proof.Proofs

open Sys2Proof.Machine Sys2Proof.Safety

/-- The clock of the engine's backend stands at `IDLE` after a reset (41_hw_assisted_acquisition.md R84). -/
theorem resetWith_sckOut_of_hwassist (p : Platform) {st : Straps} (hb : st.backend = true) :
    (State.resetWith p st).sckOut = (State.resetWith p st).idle := by
  simp [State.resetWith, State.idle, resetSckOut, Backend.ofStrap, hb]

@[simp] theorem hasEngine_ofStrap (b : Bool) : (Backend.ofStrap b).hasEngine = b := by
  cases b <;> rfl

/-- The engine runs after a reset exactly on `HWASSIST` with the resources acquired (70_reset_and_hazards.md R150). -/
theorem resetWith_eRun (p : Platform) (st : Straps) :
    (State.resetWith p st).eRun = (st.backend && !st.acqFail) := by
  simp [State.resetWith, resetEngineRun]

theorem resetWith_n (p : Platform) (st : Straps) : (State.resetWith p st).n = if st.mode then 16 else 8 := by
  cases h : st.mode <;> simp [State.n, State.resetWith, KeyMode.ofStrap, h, KeyMode.channels]

theorem pollState_eq_sampleReady {q : SeqPos} :
    q.pollState = .sampleReady ↔ ∃ i, q = .scan i ∨ q = .evwait i := by
  cases q <;> simp [SeqPos.pollState]

theorem pollState_eq_idle {q : SeqPos} : q.pollState = .idle ↔ q = .ready ∨ ∃ i ph, q = .acq i ph := by
  cases q <;> simp [SeqPos.pollState]

/-- Settles O47: the reset state's fields are the straps' values and zeros, and `PSTATE` is read off the position. -/
theorem resetLeavesSpecifiedValues : Obligations.ResetLeavesSpecifiedValues := by
  constructor
  · intro p st
    exact ⟨rfl, rfl, rfl, resetWith_n p st, rfl, rfl, rfl, rfl, rfl, rfl, rfl, rfl, rfl, rfl,
      resetWith_sckOut_of_hwassist p, rfl, resetWith_eRun p st, rfl, rfl, rfl⟩
  · intro s
    exact ⟨pollState_eq_sampleReady, pollState_eq_idle⟩

/-- Settles O49: after a reset the block stands in `READY` with zero samples and an empty queue, and it drives and runs what it
acquired. -/
theorem resetMeetsInvariant : Obligations.ResetMeetsInvariant := by
  intro p st hp
  exact {
    platform := hp
    curNarrow := narrow_zero _
    prevNarrow := narrow_zero _
    accNarrow := narrow_zero _
    eAccNarrow := narrow_zero _
    fifoNarrow := rfl
    fifoBounded := Nat.zero_le _
    eBitLegal := n_pos _
    seqLegal := rfl
    portLegal := rfl
    settled := rfl
    quietUnlessHolding := fun _ => rfl
    clockDriven := by simp [State.resetWith, holding]
    dataInput := by simp [State.resetWith, holding]
    engineRuns := by simp [State.resetWith, resetEngineRun, holding]
    queueWithEngine := fun _ => rfl }

end Sys2Proof.Proofs
end

section
/-! PROOFS. The invariant under the state's operations: one rule for each update, then one for each kind of move. -/

namespace Sys2Proof.Proofs

open Sys2Proof.Machine Sys2Proof.Safety

variable {s t : State}

/-! ### What updates leave of `N`, and what a read of the line leaves -/

@[simp] theorem gotoSeq_n (p : SeqPos) : (gotoSeq p s).n = s.n := rfl

@[simp] theorem driveSck_n (v : Level) : (driveSck v s).n = s.n := rfl

@[simp] theorem recordRead_n (b : Level) : (recordRead b s).n = s.n := rfl

@[simp] theorem fifoPush_n (w : Word) : (fifoPush w s).n = s.n := rfl

@[simp] theorem drawLevel_n : (drawLevel s).2.n = s.n := by
  rw [drawLevel_frame]
  rfl

@[simp] theorem drawLevel_seq : (drawLevel s).2.seq = s.seq := by
  rw [drawLevel_frame]

@[simp] theorem drawLevel_backend : (drawLevel s).2.backend = s.backend := by
  rw [drawLevel_frame]

/-! ### What the invariant says of a position -/

/-- Outside `READY` a `POLL` is in progress, which only a holding block has begun. -/
theorem holding_of_not_ready (h : Inv s) (hs : s.seq ≠ .ready) : holding s = true := by
  cases hh : holding s
  case true => rfl
  case false => exact absurd (h.quietUnlessHolding hh) hs

theorem holding_eq_true : holding s = true ↔ s.failed = false ∧ s.released = false := by
  simp [holding]

/-- No event stands on the event port unless the block waits for its acknowledge. -/
theorem evPort_eq_none (h : Inv s) (hw : s.seq.waits = false) : s.evPort = none := by
  have hp := h.portLegal
  cases hs : s.seq <;> simp_all [portLegal, SeqPos.waits]

/-- Outside a dispatch `PREV` is `CUR` (10_state.md R31 (d)). -/
theorem prev_eq_cur (h : Inv s) (hi : s.seq.pollState = .idle) : s.prev = s.cur := by
  have hp := h.settled
  cases hs : s.seq <;> simp_all [samplesSettled, SeqPos.pollState]

/-- Clocking by the sequencer happens on the bit-bang backend only (10_state.md R27). -/
theorem bitbang_of_acq {i : Nat} {ph : Phase} (h : Inv s) (hs : s.seq = .acq i ph) : s.backend = .bitbang := by
  have hl := h.seqLegal
  cases ph <;> simp_all [seqLegal]

/-- In `EVWAIT(i)` the bit that waits is one of the `N`. -/
theorem lt_n_of_evwait {i : Nat} (h : Inv s) (hs : s.seq = .evwait i) : i < s.n := by
  simpa [seqLegal, hs] using h.seqLegal

/-! ### Updates the invariant does not see -/

theorem inv_inputs (h : Inv s) (hs : List HostAct) (ts : List Agent) (bs : List Level) (d : Nat) :
    Inv { s with host := hs, turns := ts, device := bs, draws := d } := { h with }

theorem inv_driveSck (h : Inv s) (v : Level) : Inv (driveSck v s) := { h with }

theorem inv_recordRead (h : Inv s) (b : Level) : Inv (recordRead b s) := { h with }

theorem inv_drawLevel (h : Inv s) : Inv (drawLevel s).2 := by
  rw [drawLevel_frame]
  exact { h with }

theorem inv_raiseFault (h : Inv s) (f : CmdFault) : Inv (raiseFault f s) := { h with }

theorem inv_setPressFlag (h : Inv s) (en : Bool) : Inv (setPressFlag en s) := { h with }

theorem inv_setReleaseFlag (h : Inv s) (en : Bool) : Inv (setReleaseFlag en s) := { h with }

theorem inv_gotoEngine (h : Inv s) (p : EnginePos) : Inv (gotoEngine p s) := { h with }

/-- A response given where the port is open leaves the position as it is. -/
theorem inv_respond (h : Inv s) (ho : s.portOpen = true) (st : Status) (d : Word) : Inv (respond st d s) := by
  rw [respond_of_open st d ho]
  exact { h with }

/-! ### Updates of one register -/

theorem inv_acc (h : Inv s) {w : Word} (hw : narrow s.n w = true) : Inv { s with acc := w } :=
  { h with accNarrow := hw }

theorem inv_eAcc (h : Inv s) {w : Word} (hw : narrow s.n w = true) : Inv { s with eAcc := w } :=
  { h with eAccNarrow := hw }

theorem inv_eBit (h : Inv s) {i : Nat} (hi : i < s.n) : Inv { s with eBit := i } :=
  { h with eBitLegal := hi }

/-! ### The queue -/

theorem inv_dropOldest {w : Word} {rest : List Word} (h : Inv s) (hf : s.fifo = w :: rest) :
    Inv { s with fifo := rest } := by
  have hnarrow := h.fifoNarrow
  have hbound := h.fifoBounded
  have hqueue := h.queueWithEngine
  rw [hf] at hnarrow hbound hqueue
  exact { h with
    fifoNarrow := (Bool.and_eq_true_iff.1 hnarrow).2
    fifoBounded := (Nat.le_succ _).trans hbound
    queueWithEngine := fun he => absurd (hqueue he) (List.cons_ne_nil w rest) }

theorem narrow_of_oldest {w : Word} {rest : List Word} (h : Inv s) (hf : s.fifo = w :: rest) :
    narrow s.n w = true := by
  have hnarrow := h.fifoNarrow
  rw [hf] at hnarrow
  exact (Bool.and_eq_true_iff.1 hnarrow).1

theorem inv_fifoPush {w : Word} (h : Inv s) (hw : narrow s.n w = true) (hroom : fifoHasRoom s = true)
    (hr : s.eRun = true) : Inv (fifoPush w s) :=
  { h with
    fifoNarrow := by simpa [hw] using List.all_eq_true.1 h.fifoNarrow
    fifoBounded := by simpa [fifoPush, fifoHasRoom] using hroom
    queueWithEngine := fun he => absurd (hr.symm.trans he) (by decide) }

/-! ### Moves of the sequencer's position -/

/-- A holding block with no event out may go to any legal position but `EVWAIT`, to a clocking one with `PREV` = `CUR`. -/
theorem inv_gotoSeq {p : SeqPos} (h : Inv s) (hh : holding s = true) (hport : s.evPort = none)
    (hw : p.waits = false) (hl : seqLegal (gotoSeq p s) = true) (hset : p.pollState = .idle → s.prev = s.cur) :
    Inv (gotoSeq p s) :=
  { h with
    seqLegal := hl
    portLegal := by cases p <;> simp_all [portLegal, SeqPos.waits]
    settled := by cases p <;> simp_all [samplesSettled, SeqPos.pollState]
    quietUnlessHolding := fun hn => absurd (hh.symm.trans hn) (by decide) }

/-- From one position of an acquisition to the next. -/
theorem inv_gotoSeq_of_acq {i : Nat} {ph : Phase} {p : SeqPos} (h : Inv s) (hs : s.seq = .acq i ph)
    (hw : p.waits = false) (hl : seqLegal (gotoSeq p s) = true) : Inv (gotoSeq p s) :=
  inv_gotoSeq h (holding_of_not_ready h (by simp [hs])) (evPort_eq_none h (by rw [hs]; rfl)) hw hl
    fun _ => prev_eq_cur h (by rw [hs]; rfl)

/-- A dispatch begins on a new sample. -/
theorem inv_beginScan {w : Word} (h : Inv s) (hh : holding s = true) (hport : s.evPort = none)
    (hw : narrow s.n w = true) : Inv (gotoSeq (.scan 0) { s with cur := w }) :=
  { h with
    curNarrow := hw
    seqLegal := by simp [seqLegal]
    portLegal := by simp [portLegal, hport]
    settled := rfl
    quietUnlessHolding := fun hn => absurd (hh.symm.trans hn) (by decide) }

end Sys2Proof.Proofs
end

section
/-! PROOFS. The invariant under one move of the block sequencer (46_operation_classes.md R168). -/

namespace Sys2Proof.Proofs

open Sys2Proof.Machine Sys2Proof.Safety

variable {s t : State}

theorem afterFall_not_waits (i n : Nat) : (afterFall i n).waits = false := by
  unfold afterFall
  split <;> rfl

/-- After bit `i` the acquisition stands at a legal position. -/
theorem seqLegal_afterFall (i : Nat) (hb : s.backend = .bitbang) : seqLegal (gotoSeq (afterFall i s.n) s) = true := by
  unfold afterFall
  split
  next hnext => simp [seqLegal, hb, hnext]
  next => simp [seqLegal, hb]

theorem acqStep_keeps_inv {i : Nat} {ph : Phase} (h : Inv s) (hs : s.seq = .acq i ph)
    (hstep : acqStep i ph s = .next t) : Inv t := by
  have hb := bitbang_of_acq h hs
  rcases acqStep_eq_next hstep with ⟨-, -, -, rfl⟩ | ⟨-, hi, -, rfl⟩ | ⟨-, hi, -, rfl⟩ | ⟨-, -, -, rfl⟩ | ⟨-, -, -, rfl⟩
  · have hclear : Inv { s with acc := 0 } := inv_acc h (narrow_zero _)
    exact inv_gotoSeq_of_acq (inv_driveSck hclear _) hs rfl (by simpa [seqLegal, hb] using n_pos _)
  · exact inv_gotoSeq_of_acq (inv_driveSck h _) hs rfl (by simp [seqLegal, hb, hi])
  · have hread := inv_recordRead (inv_drawLevel h) (drawLevel s).1
    have hi' : i < (recordRead (drawLevel s).1 (drawLevel s).2).n := by simpa using hi
    have hcapture := inv_acc hread (narrow_captureBit (drawLevel s).1 hread.accNarrow (n_le_sixteen _) hi')
    exact inv_gotoSeq_of_acq hcapture (by simpa using hs) rfl
      (Bool.and_eq_true_iff.2 ⟨decide_eq_true hi', decide_eq_true (by simpa using hb)⟩)
  · exact inv_gotoSeq_of_acq (inv_driveSck h _) hs (afterFall_not_waits _ _) (seqLegal_afterFall i hb)
  · have hh := holding_of_not_ready h (by simp [hs])
    have hport := evPort_eq_none h (by rw [hs]; rfl)
    exact inv_beginScan (inv_driveSck h _) hh hport h.accNarrow

/-- An event's bit has changed, in the event's sense (42_edge_dispatch.md R98, R100). -/
theorem edge_of_edgeEvent {p r : Bool} {prev cur : Word} {i : Nat} {k : EvKind}
    (h : edgeEvent p r prev cur i = some k) : edge prev cur i = some k :=
  (Option.filter_eq_some_iff.1 h).1

theorem inv_emitEvent {i : Nat} {k : EvKind} (h : Inv s) (hh : holding s = true) (hi : i < s.n)
    (he : edge s.prev s.cur i = some k) : Inv (emitEvent k i s) :=
  { h with
    seqLegal := decide_eq_true hi
    portLegal := by simp [portLegal, he]
    settled := rfl
    quietUnlessHolding := fun hn => absurd (hh.symm.trans hn) (by decide) }

/-- A dispatch ends with `PREV` = `CUR` (42_edge_dispatch.md R102). -/
theorem inv_scanEnd {i : Nat} (h : Inv s) (hs : s.seq = .scan i) : Inv (scanEnd s) :=
  { h with
    prevNarrow := h.curNarrow
    seqLegal := by simp [seqLegal, scanEnd, hs, seqAfterRespond]
    portLegal := by
      simpa [portLegal, scanEnd, hs, seqAfterRespond] using evPort_eq_none h (by rw [hs]; rfl)
    settled := by simp [samplesSettled, scanEnd, hs, seqAfterRespond]
    quietUnlessHolding := fun _ => by simp [scanEnd, hs, seqAfterRespond] }

theorem scanStep_keeps_inv {i : Nat} (h : Inv s) (hs : s.seq = .scan i) (hstep : scanStep i s = .next t) : Inv t := by
  have hh := holding_of_not_ready h (by simp [hs])
  rcases scanStep_eq_next hstep with ⟨k, hi, he, rfl⟩ | ⟨hi, -, rfl⟩ | ⟨-, rfl⟩
  · exact inv_emitEvent h hh hi (edge_of_edgeEvent he)
  · have hport := evPort_eq_none h (by rw [hs]; rfl)
    exact inv_gotoSeq h hh hport rfl (decide_eq_true hi) (by simp [SeqPos.pollState])
  · exact inv_scanEnd h hs

theorem seqStep_keeps_inv (h : Inv s) (hstep : seqStep s = .next t) : Inv t := by
  rcases seqStep_eq_next hstep with ⟨-, rfl⟩ | ⟨i, ph, hs, hacq⟩ | ⟨i, hs, hscan⟩
  · exact h
  · exact acqStep_keeps_inv h hs hacq
  · exact scanStep_keeps_inv h hs hscan

end Sys2Proof.Proofs
end

section
/-! PROOFS. The invariant under one move of the engine (41_hw_assisted_acquisition.md R83). -/

namespace Sys2Proof.Proofs

open Sys2Proof.Machine Sys2Proof.Safety

variable {s t : State}

/-- The bit index advances only below `N`. -/
theorem inv_engineNextBit (h : Inv s) : Inv (engineNextBit s) := by
  unfold engineNextBit
  split
  next hnext => exact inv_gotoEngine (inv_eBit h hnext) _
  next => exact inv_gotoEngine h _

/-- The engine pushes its word only where there is room. -/
theorem inv_engineEmit (h : Inv s) (hr : s.eRun = true) : Inv (engineEmit s) := by
  unfold engineEmit
  split
  next hroom => exact inv_gotoEngine (inv_fifoPush h h.eAccNarrow hroom hr) _
  next =>
    split
    · exact h
    · exact inv_gotoEngine h _

theorem eRun_of_engineLive (h : engineLive s = true) : s.eRun = true :=
  (Bool.and_eq_true_iff.1 h).2

theorem engineStep_keeps_inv (h : Inv s) (hstep : engineStep s = .next t) : Inv t := by
  rcases engineStep_eq_next hstep with ⟨-, rfl⟩ | ⟨-, -, -, rfl⟩ | ⟨-, -, -, -, rfl⟩ | ⟨-, -, hi, -, rfl⟩ |
    ⟨-, -, -, -, rfl⟩ | ⟨hl, -, rfl⟩ | ⟨-, -, -, rfl⟩
  · exact h
  · have hclear := inv_eAcc (inv_driveSck h s.idle) (narrow_zero _)
    exact inv_gotoEngine (inv_eBit hclear (n_pos _)) _
  · exact inv_gotoEngine (inv_driveSck h _) _
  · have hread := inv_recordRead (inv_drawLevel h) (drawLevel s).1
    exact inv_gotoEngine (inv_eAcc hread (narrow_writeBit _ hread.eAccNarrow (n_le_sixteen _) hread.eBitLegal)) _
  · exact inv_engineNextBit (inv_driveSck h _)
  · exact inv_engineEmit h (eRun_of_engineLive hl)
  · exact inv_gotoEngine (inv_driveSck h _) _

end Sys2Proof.Proofs
end

section
/-! PROOFS. The invariant under one move of the host, and under every step. -/

namespace Sys2Proof.Proofs

open Sys2Proof.Machine Sys2Proof.Safety

variable {s t : State}

/-! ### What `TEARDOWN` releases on each backend (45_lifecycle.md R122) -/

theorem releaseResources_of_bitbang (hb : s.backend = .bitbang) :
    releaseResources s = { s with sckOe := false, sdoIn := false } := by
  unfold releaseResources
  split
  next => rfl
  next hw => exact absurd (hb.symm.trans hw) (by decide)

theorem releaseResources_of_hwassist (hb : s.backend = .hwassist) :
    releaseResources s = { s with sckOe := false, sdoIn := false, eRun := false, fifo := [] } := by
  unfold releaseResources
  split
  next hw => exact absurd (hb.symm.trans hw) (by decide)
  next => rfl

@[simp] theorem releaseResources_seq : (releaseResources s).seq = s.seq := by
  cases hb : s.backend
  case bitbang => rw [releaseResources_of_bitbang hb]
  case hwassist => rw [releaseResources_of_hwassist hb]

/-- `TEARDOWN` ends the holding, and with it everything the block drives and runs. -/
theorem inv_teardown (h : Inv s) (hs : s.seq = .ready) : Inv (setReleasedFlag (releaseResources s)) := by
  cases hb : s.backend
  case bitbang =>
    have hrun : s.eRun = false := by rw [h.engineRuns, hb]; rfl
    rw [releaseResources_of_bitbang hb]
    exact { h with
      quietUnlessHolding := fun _ => hs
      clockDriven := by simp [holding]
      dataInput := by simp [holding]
      engineRuns := by simp [holding, hrun] }
  case hwassist =>
    rw [releaseResources_of_hwassist hb]
    exact { h with
      fifoNarrow := by simp
      fifoBounded := by simp
      quietUnlessHolding := fun _ => hs
      clockDriven := by simp [holding]
      dataInput := by simp [holding]
      engineRuns := by simp [holding]
      queueWithEngine := fun _ => rfl }

theorem exec_keeps_inv {i : Instr} (h : Inv s) (hstep : exec i s = .next t) : Inv t := by
  obtain ⟨ho, ⟨f, rfl, -⟩ | ⟨hf, hrow⟩⟩ := exec_eq_next hstep
  · exact inv_raiseFault h f
  rcases hrow with ⟨d, rfl⟩ | ⟨en, -, rfl⟩ | ⟨en, -, rfl⟩ | ⟨-, hs, -, rfl⟩ | ⟨-, hs, hr, hb, rfl⟩ |
    ⟨-, hs, hr, -, w, rest, hq, rfl⟩
  · exact inv_respond h ho _ d
  · exact inv_respond (inv_setPressFlag h en) ho _ _
  · exact inv_respond (inv_setReleaseFlag h en) ho _ _
  · exact inv_respond (inv_teardown h hs) (by simpa [State.portOpen] using ho) _ _
  · have hport := evPort_eq_none h (by rw [hs]; rfl)
    exact inv_gotoSeq h (holding_eq_true.2 ⟨hf, hr⟩) hport rfl (by simp [seqLegal, hb])
      fun _ => prev_eq_cur h (by rw [hs]; rfl)
  · have hport := evPort_eq_none h (by rw [hs]; rfl)
    have hnarrow := narrow_of_oldest h hq
    exact inv_beginScan (inv_dropOldest h hq) (holding_eq_true.2 ⟨hf, hr⟩) hport hnarrow

theorem runWord_keeps_inv {w : CmdWord} (h : Inv s) (hstep : runWord w s = .next t) : Inv t := by
  rcases runWord_eq_next hstep with ⟨i, -, hexec⟩ | ⟨-, f, rfl⟩
  · exact exec_keeps_inv h hexec
  · exact inv_raiseFault h f

/-- The acknowledge of bit `i` sends a dispatch in progress on to bit `i` + 1. -/
theorem inv_acknowledge {i : Nat} (h : Inv s) (hs : s.seq = .evwait i) : Inv (acknowledge i s) :=
  have hi := lt_n_of_evwait h hs
  have hh := holding_of_not_ready h (by simp [hs])
  { h with
    seqLegal := decide_eq_true hi
    portLegal := rfl
    settled := rfl
    quietUnlessHolding := fun hn => absurd (hh.symm.trans hn) (by decide) }

theorem inv_resetBlock (h : Inv s) (st : Straps) : Inv (resetBlock st s) :=
  { resetMeetsInvariant s.plat st h.platform with }

theorem hostTurn_keeps_inv (h : Inv s) (hstep : hostTurn s = .next t) : Inv t := by
  have hinputs (rest : List HostAct) : Inv { s with host := rest } := inv_inputs h rest s.turns s.device s.draws
  rcases hostTurn_eq_next hstep with rfl | ⟨w, rest, -, -, hword⟩ | ⟨i, rest, -, hs, rfl⟩ | ⟨st, rest, -, rfl⟩
  · exact h
  · exact runWord_keeps_inv (hinputs rest) hword
  · exact inv_acknowledge (hinputs rest) hs
  · exact inv_resetBlock (hinputs rest) st

theorem agentTurn_keeps_inv {a : Agent} (h : Inv s) (hstep : agentTurn a s = .next t) : Inv t := by
  cases a with
  | host => exact hostTurn_keeps_inv h hstep
  | sequencer => exact seqStep_keeps_inv h hstep
  | engine => exact engineStep_keeps_inv h hstep

/-- Settles O50: a step is a wait or one agent's move, and each agent's moves keep the invariant. -/
theorem stepKeepsInvariant : Obligations.StepKeepsInvariant := by
  intro s t h hstep
  rcases step_cases s with hwait | ⟨a, ts, d, hmove⟩
  · cases hwait.symm.trans hstep
    exact h
  · exact agentTurn_keeps_inv (inv_inputs h s.host ts s.device d) (hmove.symm.trans hstep)

end Sys2Proof.Proofs
end

section
/-! PROOFS. What the acceptance of a word leaves unchanged (10_state.md R18, R34; 44_poll.md R121). -/

namespace Sys2Proof.Proofs

open Sys2Proof.Machine Sys2Proof.Safety

variable {s t : State}

/-- Every next state of a word from the port: a response and nothing else, or the effect of its own command (46 R168). -/
theorem runWord_rows {w : CmdWord} (h : runWord w s = .next t) :
    (∃ r, t = putResponse r s) ∨
    (∃ en, decode w = .command (.setpress en) ∧ t = putResponse (rspWord .ok 0) (setPressFlag en s)) ∨
    (∃ en, decode w = .command (.setrelease en) ∧ t = putResponse (rspWord .ok 0) (setReleaseFlag en s)) ∨
    (decode w = .command .teardown ∧
      t = putResponse (rspWord .ok 0) (setReleasedFlag (releaseResources s))) ∨
    (decode w = .command .poll ∧ t = gotoSeq (.acq 0 .start) s) ∨
    (decode w = .command .poll ∧ s.backend = .hwassist ∧
      ∃ v rest, t = gotoSeq (.scan 0) { s with fifo := rest, cur := v }) := by
  rcases runWord_eq_next h with ⟨i, hd, he⟩ | ⟨-, f, rfl⟩
  swap
  · exact .inl ⟨_, rfl⟩
  obtain ⟨ho, ⟨f, rfl, -⟩ | ⟨-, hrow⟩⟩ := exec_eq_next he
  · exact .inl ⟨_, rfl⟩
  rcases hrow with ⟨d, rfl⟩ | ⟨en, rfl, rfl⟩ | ⟨en, rfl, rfl⟩ | ⟨rfl, -, -, rfl⟩ | ⟨rfl, -, -, -, rfl⟩ |
    ⟨rfl, -, -, hb, v, rest, -, rfl⟩
  · exact .inl ⟨_, respond_of_open _ _ ho⟩
  · exact .inr (.inl ⟨en, hd, respond_of_open _ _ ho⟩)
  · exact .inr (.inr (.inl ⟨en, hd, respond_of_open _ _ ho⟩))
  · exact .inr (.inr (.inr (.inl ⟨hd, respond_of_open _ _ (by simpa [State.portOpen] using ho)⟩)))
  · exact .inr (.inr (.inr (.inr (.inl ⟨hd, rfl⟩))))
  · exact .inr (.inr (.inr (.inr (.inr ⟨hd, hb, v, rest, rfl⟩))))

/-- Settles O24: each row of a word's acceptance writes only the fields it names. -/
theorem commandFrame : Obligations.CommandFrame := by
  intro w s t h
  rcases runWord_rows h with ⟨r, rfl⟩ | ⟨en, hd, rfl⟩ | ⟨en, hd, rfl⟩ | ⟨hd, rfl⟩ | ⟨hd, rfl⟩ | ⟨hd, hb, v, rest, rfl⟩
  · simp
  · simp [hd]
  · simp [hd]
  · cases hb : s.backend
    case bitbang => simp [releaseResources_of_bitbang hb, hd, hb]
    case hwassist => simp [releaseResources_of_hwassist hb, hd, hb]
  · simp [hd]
  · simp [hd, hb]

end Sys2Proof.Proofs
end

section
/-! PROOFS. Only a reset writes the configuration, `FAILED` and `ERRVAL` (10_state.md R18, 70_reset_and_hazards.md R148). -/

namespace Sys2Proof.Proofs

open Sys2Proof.Machine Sys2Proof.Safety

/-- What reset fixes for the time until the next reset: the parameters, the configuration, `FAILED` and `ERRVAL`. -/
structure SameConfig (s t : State) : Prop where
  plat : t.plat = s.plat
  mode : t.mode = s.mode
  pol : t.pol = s.pol
  backend : t.backend = s.backend
  failed : t.failed = s.failed
  errval : t.errval = s.errval

variable {s t : State}

theorem sameConfig_refl (s : State) : SameConfig s s := ⟨rfl, rfl, rfl, rfl, rfl, rfl⟩

theorem drawLevel_keeps_config (s : State) : SameConfig s (drawLevel s).2 := by
  rw [drawLevel_frame]
  exact ⟨rfl, rfl, rfl, rfl, rfl, rfl⟩

theorem runWord_keeps_config {w : CmdWord} (h : runWord w s = .next t) : SameConfig s t := by
  obtain ⟨⟨hplat, hmode, hpol, hbackend, hfailed, herrval, -⟩, -⟩ := commandFrame w s t h
  exact ⟨hplat, hmode, hpol, hbackend, hfailed, herrval⟩

theorem seqStep_keeps_config (h : seqStep s = .next t) : SameConfig s t := by
  rcases seqStep_eq_next h with ⟨-, rfl⟩ | ⟨i, ph, -, hacq⟩ | ⟨i, -, hscan⟩
  · exact sameConfig_refl t
  · rcases acqStep_eq_next hacq with ⟨-, -, -, rfl⟩ | ⟨-, -, -, rfl⟩ | ⟨-, -, -, rfl⟩ | ⟨-, -, -, rfl⟩ | ⟨-, -, -, rfl⟩
    · exact { sameConfig_refl s with }
    · exact { sameConfig_refl s with }
    · exact { drawLevel_keeps_config s with }
    · exact { sameConfig_refl s with }
    · exact { sameConfig_refl s with }
  · rcases scanStep_eq_next hscan with ⟨k, -, -, rfl⟩ | ⟨-, -, rfl⟩ | ⟨-, rfl⟩ <;> exact { sameConfig_refl s with }

theorem engineNextBit_keeps_config (s : State) : SameConfig s (engineNextBit s) := by
  unfold engineNextBit
  split <;> exact { sameConfig_refl s with }

theorem engineEmit_keeps_config (s : State) : SameConfig s (engineEmit s) := by
  unfold engineEmit
  split
  next => exact { sameConfig_refl s with }
  next => split <;> exact { sameConfig_refl s with }

theorem engineStep_keeps_config (h : engineStep s = .next t) : SameConfig s t := by
  rcases engineStep_eq_next h with ⟨-, rfl⟩ | ⟨-, -, -, rfl⟩ | ⟨-, -, -, -, rfl⟩ | ⟨-, -, -, -, rfl⟩ |
    ⟨-, -, -, -, rfl⟩ | ⟨-, -, rfl⟩ | ⟨-, -, -, rfl⟩
  · exact sameConfig_refl t
  · exact { sameConfig_refl s with }
  · exact { sameConfig_refl s with }
  · exact { drawLevel_keeps_config s with }
  · exact { engineNextBit_keeps_config (driveSck s.idle s) with }
  · exact engineEmit_keeps_config s
  · exact { sameConfig_refl s with }

/-- The host's move keeps the configuration, unless it takes a reset. -/
theorem hostTurn_keeps_config_or_resets (h : hostTurn s = .next t) :
    SameConfig s t ∨ ∃ st rest, s.host = .reset st :: rest ∧ t = resetBlock st { s with host := rest } := by
  rcases hostTurn_eq_next h with rfl | ⟨w, rest, -, -, hword⟩ | ⟨i, rest, -, -, rfl⟩ | hreset
  · exact .inl (sameConfig_refl t)
  · exact .inl { runWord_keeps_config hword with }
  · exact .inl { sameConfig_refl s with }
  · exact .inr hreset

theorem agentTurn_keeps_config_or_resets {a : Agent} (h : agentTurn a s = .next t) :
    SameConfig s t ∨ ∃ st rest, s.host = .reset st :: rest ∧ t = resetBlock st { s with host := rest } := by
  cases a with
  | host => exact hostTurn_keeps_config_or_resets h
  | sequencer => exact .inl (seqStep_keeps_config h)
  | engine => exact .inl (engineStep_keeps_config h)

/-- Settles O54: of all moves only the host's reset writes what the straps fix. -/
theorem onlyResetWritesConfiguration : Obligations.OnlyResetWritesConfiguration := by
  intro s t h
  rcases step_cases s with hwait | ⟨a, ts, d, hmove⟩
  · cases hwait.symm.trans h
    exact ⟨rfl, .inl ⟨rfl, rfl, rfl, rfl, rfl⟩⟩
  · rcases agentTurn_keeps_config_or_resets (hmove.symm.trans h) with
      ⟨hplat, hmode, hpol, hbackend, hfailed, herrval⟩ | ⟨st, rest, hs, rfl⟩
    · exact ⟨hplat, .inl ⟨hmode, hpol, hbackend, hfailed, herrval⟩⟩
    · exact ⟨rfl, .inr ⟨st, rest, hs, rfl, rfl, rfl, rfl, rfl, rfl⟩⟩

end Sys2Proof.Proofs
end

section
/-! PROOFS. The engine's step (41_hw_assisted_acquisition.md R83), one rule for each position it can stand at. -/

namespace Sys2Proof.Proofs

open Sys2Proof.Machine

variable {s : State}

theorem engineStep_of_not_live (hl : engineLive s = false) : engineStep s = .next s := by
  simp [engineStep, hl]

theorem engineStep_of_live (hl : engineLive s = true) : engineStep s = engineRunStep s := by
  simp [engineStep, hl]

theorem engineStep_of_hold (hl : engineLive s = true) (he : s.eSeq = .hold) (ho : s.sckOe = true) :
    engineStep s = .next (gotoEngine .rise { driveSck s.idle s with eAcc := 0, eBit := 0 }) := by
  simp [engineStep_of_live hl, engineRunStep, he, engineHold, ho]

theorem engineStep_of_rise (hl : engineLive s = true) (he : s.eSeq = .rise) (hi : s.eBit < s.n) (ho : s.sckOe = true) :
    engineStep s = .next (gotoEngine .capt (driveSck s.active s)) := by
  simp [engineStep_of_live hl, engineRunStep, he, hi, engineRise, ho]

theorem engineStep_of_capt (hl : engineLive s = true) (he : s.eSeq = .capt) (hi : s.eBit < s.n) (hd : s.sdoIn = true) :
    engineStep s = .next (gotoEngine .fall { recordRead (drawLevel s).1 (drawLevel s).2 with
      eAcc := writeBit (drawLevel s).2.eAcc (drawLevel s).2.eBit (drawLevel s).1 }) := by
  simp [engineStep_of_live hl, engineRunStep, he, hi, engineCapture, hd]

theorem engineStep_of_fall (hl : engineLive s = true) (he : s.eSeq = .fall) (hi : s.eBit < s.n) (ho : s.sckOe = true) :
    engineStep s = .next (engineNextBit (driveSck s.idle s)) := by
  simp [engineStep_of_live hl, engineRunStep, he, hi, engineFall, ho]

theorem engineStep_of_emit (hl : engineLive s = true) (he : s.eSeq = .emit) : engineStep s = .next (engineEmit s) := by
  simp [engineStep_of_live hl, engineRunStep, he]

theorem engineStep_of_settle (hl : engineLive s = true) (he : s.eSeq = .settle) (ho : s.sckOe = true) :
    engineStep s = .next (gotoEngine .hold (driveSck (s.plat.settleLevel.level s.pol) s)) := by
  simp [engineStep_of_live hl, engineRunStep, he, engineSettle, ho]

/-! ### `EMIT` (20_memory.md R41, R42; 41 R88) -/

theorem fifoHasRoom_eq_true : fifoHasRoom s = true ↔ s.fifo.length < s.plat.fifoDepth := decide_eq_true_iff

theorem fifoHasRoom_eq_false : fifoHasRoom s = false ↔ s.plat.fifoDepth ≤ s.fifo.length := by
  simp [fifoHasRoom]

theorem engineEmit_of_room (h : s.fifo.length < s.plat.fifoDepth) :
    engineEmit s = gotoEngine .settle (fifoPush s.eAcc s) := by
  simp [engineEmit, fifoHasRoom_eq_true.2 h]

theorem engineEmit_of_full_stall (h : s.plat.fifoDepth ≤ s.fifo.length) (hp : s.plat.fullPolicy = .stall) :
    engineEmit s = s := by
  simp [engineEmit, fifoHasRoom_eq_false.2 h, hp]

theorem engineEmit_of_full_dropNew (h : s.plat.fifoDepth ≤ s.fifo.length) (hp : s.plat.fullPolicy = .dropNew) :
    engineEmit s = gotoEngine .settle s := by
  simp [engineEmit, fifoHasRoom_eq_false.2 h, hp]

theorem engineStep_of_emit_room (hl : engineLive s = true) (he : s.eSeq = .emit)
    (h : s.fifo.length < s.plat.fifoDepth) : engineStep s = .next (gotoEngine .settle (fifoPush s.eAcc s)) := by
  rw [engineStep_of_emit hl he, engineEmit_of_room h]

/-- A stalled engine's step changes nothing (R42). -/
theorem engineStep_of_emit_stall (hl : engineLive s = true) (he : s.eSeq = .emit)
    (h : s.plat.fifoDepth ≤ s.fifo.length) (hp : s.plat.fullPolicy = .stall) : engineStep s = .next s := by
  rw [engineStep_of_emit hl he, engineEmit_of_full_stall h hp]

theorem engineStep_of_emit_dropNew (hl : engineLive s = true) (he : s.eSeq = .emit)
    (h : s.plat.fifoDepth ≤ s.fifo.length) (hp : s.plat.fullPolicy = .dropNew) :
    engineStep s = .next (gotoEngine .settle s) := by
  rw [engineStep_of_emit hl he, engineEmit_of_full_dropNew h hp]

/-! ### The end of a pulse (41 R83) -/

theorem engineNextBit_of_lt (h : s.eBit + 1 < s.n) :
    engineNextBit s = gotoEngine .rise { s with eBit := s.eBit + 1 } := if_pos h

theorem engineNextBit_of_last (h : ¬ s.eBit + 1 < s.n) : engineNextBit s = gotoEngine .emit s := if_neg h

end Sys2Proof.Proofs
end

section
/-! PROOFS. What the engine writes, and what it does at `EMIT` (20_memory.md R41, R42, R50). -/

namespace Sys2Proof.Proofs

open Sys2Proof.Machine Sys2Proof.Safety

variable {s t : State}

/-- `s` with the engine's registers, the queue, the clock and the line records of `x`: what an engine step may write (R50). -/
def withEngineOf (x s : State) : State :=
  { s with
    eSeq := x.eSeq, eBit := x.eBit, eAcc := x.eAcc, fifo := x.fifo, sckOut := x.sckOut, sckUnset := x.sckUnset,
    device := x.device, draws := x.draws, trace := x.trace }

theorem engineNextBit_frame (s : State) : engineNextBit s = withEngineOf (engineNextBit s) s := by
  unfold engineNextBit
  split <;> rfl

theorem engineEmit_frame (s : State) : engineEmit s = withEngineOf (engineEmit s) s := by
  unfold engineEmit
  split
  next => rfl
  next => split <;> rfl

theorem engineStep_frame (h : engineStep s = .next t) : t = withEngineOf t s := by
  rcases engineStep_eq_next h with ⟨-, rfl⟩ | ⟨-, -, -, rfl⟩ | ⟨-, -, -, -, rfl⟩ | ⟨-, -, -, -, rfl⟩ |
    ⟨-, -, -, -, rfl⟩ | ⟨-, -, rfl⟩ | ⟨-, -, -, rfl⟩
  · rfl
  · rfl
  · rfl
  · rw [drawLevel_frame]
    rfl
  · rw [engineNextBit_frame]
    rfl
  · exact engineEmit_frame s
  · rfl

@[simp] theorem engineNextBit_fifo (s : State) : (engineNextBit s).fifo = s.fifo := by
  unfold engineNextBit
  split <;> rfl

@[simp] theorem drawLevel_fifo (s : State) : (drawLevel s).2.fifo = s.fifo := by
  rw [drawLevel_frame]

theorem engineEmit_fifo (s : State) :
    (engineEmit s).fifo = s.fifo ∨ ((engineEmit s).fifo = s.fifo ++ [s.eAcc] ∧ s.fifo.length < s.plat.fifoDepth) := by
  unfold engineEmit
  split
  next hroom => exact .inr ⟨rfl, fifoHasRoom_eq_true.1 hroom⟩
  next => split <;> exact .inl rfl

/-- The engine's one queue operation is a push at `EMIT` below the bound (R41). -/
theorem engineStep_fifo (h : engineStep s = .next t) :
    t.fifo = s.fifo ∨ (t.fifo = s.fifo ++ [s.eAcc] ∧ s.eSeq = .emit ∧ s.fifo.length < s.plat.fifoDepth) := by
  rcases engineStep_eq_next h with ⟨-, rfl⟩ | ⟨-, -, -, rfl⟩ | ⟨-, -, -, -, rfl⟩ | ⟨-, -, -, -, rfl⟩ |
    ⟨-, -, -, -, rfl⟩ | ⟨-, he, rfl⟩ | ⟨-, -, -, rfl⟩
  · exact .inl rfl
  · exact .inl rfl
  · exact .inl rfl
  · exact .inl (drawLevel_fifo s)
  · exact .inl (engineNextBit_fifo _)
  · exact (engineEmit_fifo s).imp_right fun ⟨hpush, hroom⟩ => ⟨hpush, he, hroom⟩
  · exact .inl rfl

/-- Settles O44: the frame, the queue and the stopped engine, one rule each. -/
theorem engineFrame : Obligations.EngineFrame := by
  intro s t h
  refine ⟨engineStep_frame h, engineStep_fifo h, fun hl => ?_⟩
  cases (engineStep_of_not_live hl).symm.trans h
  rfl

/-- A live engine's clock is at `IDLE` while it stands at `EMIT`, stalled or not (41 R87, R88). -/
theorem wire_of_emit (hl : engineLive s = true) (he : s.eSeq = .emit) (ho : s.sckOe = true) (hc : ClockInv s) :
    s.wire = some s.idle := by
  have hw := hc.wire ho
  have hb : s.backend = .hwassist := by
    cases hb : s.backend
    case hwassist => rfl
    case bitbang => simp [engineLive, hb, Backend.hasEngine] at hl
  simpa [clockWires, hb, engineWires, he] using hw

/-- Settles O43: room, a full queue under each policy, and the clock meanwhile. -/
theorem emitPushesHoldsOrDrops : Obligations.EmitPushesHoldsOrDrops := by
  intro s hl he
  refine ⟨?room, ?stall, ?dropNew, wire_of_emit hl he⟩
  case room => exact engineStep_of_emit_room hl he
  case stall =>
    intro h hp
    have hstalled : engineStalled s = true := by simp [engineStalled, he, hp, fifoHasRoom_eq_false.2 h]
    exact ⟨by simp [engineEnabled, hstalled], engineStep_of_emit_stall hl he h hp⟩
  case dropNew =>
    intro h hp
    have hfree : engineStalled s = false := by simp [engineStalled, he, hp]
    exact ⟨by simp [engineEnabled, hl, hfree], engineStep_of_emit_dropNew hl he h hp⟩

end Sys2Proof.Proofs
end

section
/-! PROOFS. The engine beside the block: a push and a `POLL`, an engine step and a scan step (20_memory.md R50, R52). -/

namespace Sys2Proof.Proofs

open Sys2Proof.Machine

variable {s t : State}

theorem acquireQueued_of_empty (hq : s.fifo = []) : acquireQueued s = .next (respond .ok 0 s) := by
  simp [acquireQueued, fifoCount, hq]

theorem acquireQueued_of_pending {w : Word} {rest : List Word} (hq : s.fifo = w :: rest) :
    acquireQueued s = .next (gotoSeq (.scan 0) { s with fifo := rest, cur := w }) := by
  simp [acquireQueued, fifoCount, fifoPop, hq]

/-- `POLL` of a pending word (41_hw_assisted_acquisition.md R91, R92). -/
theorem execPoll_of_pending {w : Word} {rest : List Word} (hs : s.seq = .ready) (hf : s.failed = false)
    (hr : s.released = false) (hb : s.backend = .hwassist) (hq : s.fifo = w :: rest) :
    exec .poll s = .next (gotoSeq (.scan 0) { s with fifo := rest, cur := w }) := by
  have ho : s.portOpen = true := by rw [State.portOpen, hs]; rfl
  have hw : s.waiting = false := by rw [State.waiting, hs]; rfl
  simp [exec, execPoll, ho, hf, hw, hr, hb, acquireQueued_of_pending hq]

/-- Settles O45: the `POLL` takes the oldest word and the push adds the newest, of a queue that has both ends. -/
theorem pushCommutesWithPoll : Obligations.PushCommutesWithPoll := by
  intro s a b hs hf hr hb hne he hroom ha hpoll
  obtain ⟨w, rest, hq⟩ := List.exists_cons_of_ne_nil hne
  cases (execPoll_of_pending hs hf hr hb hq).symm.trans hpoll
  cases hl : engineLive s
  case false =>
    cases (engineStep_of_not_live hl).symm.trans ha
    exact ⟨_, hpoll, engineStep_of_not_live hl⟩
  case true =>
    cases (engineStep_of_emit_room hl he hroom).symm.trans ha
    have hq' : (fifoPush s.eAcc s).fifo = w :: (rest ++ [s.eAcc]) := by simp [hq]
    have hroom' : rest.length < s.plat.fifoDepth := by
      rw [hq] at hroom
      exact (Nat.lt_succ_self _).trans hroom
    exact ⟨_, execPoll_of_pending hs hf hr hb hq', engineStep_of_emit_room hl he hroom'⟩

/-- `s` with the fields of `x` that a step of the dispatcher may write (46_operation_classes.md R168). -/
def withScanOf (x s : State) : State :=
  { s with prev := x.prev, seq := x.seq, evPort := x.evPort, rspLog := x.rspLog, evLog := x.evLog }

theorem scanStep_of_event {i : Nat} {k : EvKind} (hi : i < s.n)
    (he : edgeEvent s.pressSet s.releaseSet s.prev s.cur i = some k) : scanStep i s = .next (emitEvent k i s) := by
  simp [scanStep, hi, scanBit, he]

theorem scanStep_of_no_event {i : Nat} (hi : i < s.n) (he : edgeEvent s.pressSet s.releaseSet s.prev s.cur i = none) :
    scanStep i s = .next (gotoSeq (.scan (i + 1)) s) := by
  simp [scanStep, hi, scanBit, he]

theorem scanStep_of_end {i : Nat} (hi : i = s.n) : scanStep i s = .next (scanEnd s) := by
  simp [scanStep, hi]

theorem seqStep_of_scan {i : Nat} (hs : s.seq = .scan i) : seqStep s = scanStep i s := by
  unfold seqStep
  rw [hs]

theorem scanStep_frame {i : Nat} (h : scanStep i s = .next t) : t = withScanOf t s := by
  rcases scanStep_eq_next h with ⟨k, -, -, rfl⟩ | ⟨-, -, rfl⟩ | ⟨-, rfl⟩ <;> rfl

/-- The dispatcher reads nothing that the engine writes. -/
theorem scanStep_withEngineOf {i : Nat} (x : State) (h : scanStep i s = .next t) :
    scanStep i (withEngineOf x s) = .next (withEngineOf x t) := by
  rcases scanStep_eq_next h with ⟨k, hi, he, rfl⟩ | ⟨hi, he, rfl⟩ | ⟨hi, rfl⟩
  · exact scanStep_of_event hi he
  · exact scanStep_of_no_event hi he
  · exact scanStep_of_end hi

theorem drawLevel_withScanOf (x s : State) :
    drawLevel (withScanOf x s) = ((drawLevel s).1, withScanOf x (drawLevel s).2) := by
  cases hd : s.device
  case nil => rw [drawLevel_of_nil hd, drawLevel_of_nil (s := withScanOf x s) hd]; rfl
  case cons b rest => rw [drawLevel_of_cons hd, drawLevel_of_cons (s := withScanOf x s) hd]; rfl

theorem engineNextBit_withScanOf (x s : State) : engineNextBit (withScanOf x s) = withScanOf x (engineNextBit s) := by
  by_cases hnext : s.eBit + 1 < s.n
  · rw [engineNextBit_of_lt hnext]
    exact engineNextBit_of_lt hnext
  · rw [engineNextBit_of_last hnext]
    exact engineNextBit_of_last hnext

theorem engineEmit_withScanOf (x s : State) : engineEmit (withScanOf x s) = withScanOf x (engineEmit s) := by
  rcases Nat.lt_or_ge s.fifo.length s.plat.fifoDepth with hroom | hfull
  · rw [engineEmit_of_room hroom]
    exact engineEmit_of_room hroom
  · cases hp : s.plat.fullPolicy
    case stall =>
      rw [engineEmit_of_full_stall hfull hp]
      exact engineEmit_of_full_stall hfull hp
    case dropNew =>
      rw [engineEmit_of_full_dropNew hfull hp]
      exact engineEmit_of_full_dropNew hfull hp

/-- The engine reads nothing that the dispatcher writes. -/
theorem engineStep_withScanOf (x : State) (h : engineStep s = .next t) :
    engineStep (withScanOf x s) = .next (withScanOf x t) := by
  rcases engineStep_eq_next h with ⟨hl, rfl⟩ | ⟨hl, he, ho, rfl⟩ | ⟨hl, he, hi, ho, rfl⟩ | ⟨hl, he, hi, hd, rfl⟩ |
    ⟨hl, he, hi, ho, rfl⟩ | ⟨hl, he, rfl⟩ | ⟨hl, he, ho, rfl⟩
  · exact engineStep_of_not_live hl
  · exact engineStep_of_hold hl he ho
  · exact engineStep_of_rise hl he hi ho
  · rw [engineStep_of_capt (s := withScanOf x s) hl he hi hd, drawLevel_withScanOf]
    rfl
  · rw [← engineNextBit_withScanOf]
    exact engineStep_of_fall hl he hi ho
  · rw [← engineEmit_withScanOf]
    exact engineStep_of_emit hl he
  · exact engineStep_of_settle hl he ho

/-- Settles O46: each agent reads and writes its own part, so both orders end with the two parts written. -/
theorem scanCommutesWithEngine : Obligations.ScanCommutesWithEngine := by
  intro s a b i hs ha hb
  rw [seqStep_of_scan hs] at hb
  have hfa := engineStep_frame ha
  have hfb := scanStep_frame hb
  have hsa : a.seq = .scan i := by rw [hfa]; exact hs
  have hscan : seqStep a = .next (withEngineOf a b) := by
    rw [seqStep_of_scan hsa]
    conv_lhs => rw [hfa]
    exact scanStep_withEngineOf a hb
  have hengine : engineStep b = .next (withScanOf b a) := by
    conv_lhs => rw [hfb]
    exact engineStep_withScanOf b ha
  have hsame : withScanOf b a = withEngineOf a b := by
    conv_lhs => rw [hfa]
    conv_rhs => rw [hfb]
    rfl
  exact ⟨_, hscan, hengine.trans (congrArg _ hsame)⟩

end Sys2Proof.Proofs
end

section
/-! PROOFS. From an invariant state no agent's move is stuck (20_memory.md R40, R43, R45; 70_reset_and_hazards.md R164). -/

namespace Sys2Proof.Proofs

open Sys2Proof.Machine Sys2Proof.Safety

variable {s : State}

theorem driven_of_holding (h : Inv s) (hh : holding s = true) : s.sckOe = true := h.clockDriven.trans hh

theorem sdoIn_of_holding (h : Inv s) (hh : holding s = true) : s.sdoIn = true := h.dataInput.trans hh

theorem holding_of_engineLive (h : Inv s) (hl : engineLive s = true) : holding s = true :=
  (Bool.and_eq_true_iff.1 (h.engineRuns.symm.trans (eRun_of_engineLive hl))).2

/-- A live engine holds its lines and a legal bit index, which is all that its positions ask for. -/
theorem engineStep_progress (h : Inv s) : ∃ t, engineStep s = .next t := by
  cases hl : engineLive s
  case false => exact ⟨_, engineStep_of_not_live hl⟩
  have hh := holding_of_engineLive h hl
  have ho := driven_of_holding h hh
  cases he : s.eSeq with
  | hold => exact ⟨_, engineStep_of_hold hl he ho⟩
  | rise => exact ⟨_, engineStep_of_rise hl he h.eBitLegal ho⟩
  | capt => exact ⟨_, engineStep_of_capt hl he h.eBitLegal (sdoIn_of_holding h hh)⟩
  | fall => exact ⟨_, engineStep_of_fall hl he h.eBitLegal ho⟩
  | emit => exact ⟨_, engineStep_of_emit hl he⟩
  | settle => exact ⟨_, engineStep_of_settle hl he ho⟩

/-! ### The sequencer: one rule for each phase of an acquisition (40 R72 to R76) -/

theorem acqStep_of_start (ho : s.sckOe = true) :
    acqStep 0 .start s = .next (gotoSeq (.acq 0 .rise) (driveSck s.idle { s with acc := 0 })) := by
  simp [acqStep, acqStart, ho]

theorem acqStep_of_rise {i : Nat} (hi : i < s.n) (ho : s.sckOe = true) :
    acqStep i .rise s = .next (gotoSeq (.acq i .capt) (driveSck s.active s)) := by
  simp [acqStep, hi, acqRise, ho]

theorem acqStep_of_capt {i : Nat} (hi : i < s.n) (hd : s.sdoIn = true) :
    acqStep i .capt s = .next (gotoSeq (.acq i .fall) { recordRead (drawLevel s).1 (drawLevel s).2 with
      acc := captureBit (drawLevel s).2.acc i (drawLevel s).1 }) := by
  simp [acqStep, hi, acqCapture, hd]

theorem acqStep_of_fall {i : Nat} (hi : i < s.n) (ho : s.sckOe = true) :
    acqStep i .fall s = .next (gotoSeq (afterFall i s.n) (driveSck s.idle s)) := by
  simp [acqStep, hi, acqFall, ho]

theorem acqStep_of_final (ho : s.sckOe = true) :
    acqStep s.n .final s = .next (gotoSeq (.scan 0) { driveSck s.active s with cur := s.acc }) := by
  simp [acqStep, acqFinal, ho]

/-- At a legal position of a block that holds its lines an acquisition step writes or reads. -/
theorem acqStep_progress {i : Nat} {ph : Phase} (hs : s.seq = .acq i ph) (hl : seqLegal s = true) (ho : s.sckOe = true)
    (hd : s.sdoIn = true) : ∃ t, acqStep i ph s = .next t := by
  cases ph <;> simp only [seqLegal, hs, Bool.and_eq_true, decide_eq_true_eq] at hl <;> obtain ⟨hi, -⟩ := hl
  case start => subst hi; exact ⟨_, acqStep_of_start ho⟩
  case rise => exact ⟨_, acqStep_of_rise hi ho⟩
  case capt => exact ⟨_, acqStep_of_capt hi hd⟩
  case fall => exact ⟨_, acqStep_of_fall hi ho⟩
  case final => subst hi; exact ⟨_, acqStep_of_final ho⟩

theorem scanStep_progress {i : Nat} (hi : i ≤ s.n) : ∃ t, scanStep i s = .next t := by
  rcases Nat.lt_or_eq_of_le hi with hlt | hend
  · cases he : edgeEvent s.pressSet s.releaseSet s.prev s.cur i
    case none => exact ⟨_, scanStep_of_no_event hlt he⟩
    case some => exact ⟨_, scanStep_of_event hlt he⟩
  · exact ⟨_, scanStep_of_end hend⟩

theorem seqStep_progress (h : Inv s) : ∃ t, seqStep s = .next t := by
  cases hs : s.seq with
  | ready => exact ⟨s, by simp [seqStep, hs]⟩
  | acq i ph =>
    have hh := holding_of_not_ready h (by simp [hs])
    obtain ⟨t, ht⟩ := acqStep_progress hs h.seqLegal (driven_of_holding h hh) (sdoIn_of_holding h hh)
    exact ⟨t, by simp [seqStep, hs, ht]⟩
  | scan i =>
    have hi : i ≤ s.n := by simpa [seqLegal, hs] using h.seqLegal
    rw [seqStep_of_scan hs]
    exact scanStep_progress hi
  | evwait i => exact ⟨s, by simp [seqStep, hs]⟩

/-! ### The host -/

/-- `ACQ_HW` pops only a queue that has a word (20_memory.md R40). -/
theorem acquireQueued_progress (s : State) : ∃ t, acquireQueued s = .next t := by
  cases hq : s.fifo
  case nil => exact ⟨_, acquireQueued_of_empty hq⟩
  case cons w rest => exact ⟨_, acquireQueued_of_pending hq⟩

/-- A command whose body answers is answered on an open port (60_exceptions.md R137). -/
theorem command_progress {body : State → Result} (ho : s.portOpen = true) (hb : ∃ t, body s = .next t) :
    ∃ t, command s body = .next t := by
  cases hf : s.failed
  case true => exact ⟨_, command_of_failed body ho hf⟩
  case false => rwa [command_of_open body ho hf]

theorem execTeardown_progress (ho : s.portOpen = true) : ∃ t, execTeardown s = .next t := by
  refine command_progress ho ?_
  split
  · exact ⟨_, rfl⟩
  · split <;> exact ⟨_, rfl⟩

theorem execPoll_progress (ho : s.portOpen = true) : ∃ t, execPoll s = .next t := by
  refine command_progress ho ?_
  split
  · exact ⟨_, rfl⟩
  · split
    · exact ⟨_, rfl⟩
    · cases s.backend
      case bitbang => exact ⟨_, rfl⟩
      case hwassist => exact acquireQueued_progress s

theorem exec_progress (i : Instr) (ho : s.portOpen = true) : ∃ t, exec i s = .next t := by
  cases i with
  | teardown => exact execTeardown_progress ho
  | poll => exact execPoll_progress ho
  | sample | channel | count | setpress | setrelease =>
    simp only [exec, execSample, execChannel, execCount, execSetpress, execSetrelease]
    exact command_progress ho ⟨_, rfl⟩

theorem runWord_progress (w : CmdWord) (ho : s.portOpen = true) : ∃ t, runWord w s = .next t := by
  unfold runWord
  split
  · exact exec_progress _ ho
  · exact command_progress ho ⟨_, rfl⟩

/-- The host's one move without a meaning is an acknowledge in `READY` (log entry 11). -/
theorem hostTurn_progress (s : State) : (∃ t, hostTurn s = .next t) ∨
    (hostTurn s = .refused .ackWithoutEvent ∧ s.seq = .ready ∧ ∃ rest, s.host = .ack :: rest) := by
  unfold hostTurn
  split
  next => exact .inl ⟨_, rfl⟩
  next =>
    split
    next ho => exact .inl (runWord_progress _ ho)
    next => exact .inl ⟨_, rfl⟩
  next rest hhost =>
    unfold hostAck
    split
    next hs => exact .inr ⟨rfl, hs, rest, hhost⟩
    all_goals exact .inl ⟨_, rfl⟩
  next => exact .inl ⟨_, rfl⟩

theorem agentTurn_progress (a : Agent) (h : Inv s) : (∃ t, agentTurn a s = .next t) ∨
    (agentTurn a s = .refused .ackWithoutEvent ∧ s.seq = .ready ∧ ∃ rest, s.host = .ack :: rest) := by
  cases a with
  | host => exact hostTurn_progress s
  | sequencer => exact .inl (seqStep_progress h)
  | engine => exact .inl (engineStep_progress h)

/-- Settles O51: a step is a wait or one agent's move from a state that meets the invariant too. -/
theorem invariantStatesNeverStick : Obligations.InvariantStatesNeverStick := by
  intro s h
  rcases step_cases s with hwait | ⟨a, ts, d, hmove⟩
  · exact .inl ⟨s, hwait⟩
  · rw [hmove]
    exact agentTurn_progress a (inv_inputs h s.host ts s.device d)

end Sys2Proof.Proofs
end

section
/-! PROOFS. The word that levels written bit by bit make (41_hw_assisted_acquisition.md R86, 20_memory.md R46). -/

namespace Sys2Proof.Proofs

open Sys2Proof.Machine

/-- `w` with the levels `bits` written to its bits `i`, `i` + 1, ... in order, as the capture steps of successive pulses write them. -/
def writeBits (w : Word) (i : Nat) : List Level → Word
  | [] => w
  | b :: bs => writeBits (writeBit w i b) (i + 1) bs

/-- Each written bit is its level; the others keep their value. -/
theorem getLsbD_writeBits (bits : List Level) (w : Word) (i j : Nat) (hi : i + bits.length ≤ 16) :
    (writeBits w i bits).getLsbD j =
      if i ≤ j ∧ j < i + bits.length then bits[j - i]?.getD false else w.getLsbD j := by
  induction bits generalizing w i with
  | nil => simp [writeBits, show ¬ (i ≤ j ∧ j < i) by omega]
  | cons b bs ih =>
    rw [List.length_cons] at hi
    rw [writeBits, ih _ _ (by omega), getLsbD_writeBit _ _ _ _ (by omega), List.length_cons]
    rcases Nat.lt_trichotomy j i with hlt | rfl | hgt
    · rw [if_neg (by omega), if_neg (by omega), if_neg (by omega)]
    · rw [if_neg (by omega), if_pos rfl, if_pos (by omega)]
      simp
    · obtain ⟨k, rfl⟩ := Nat.exists_eq_add_of_lt hgt
      have hk : i + k + 1 - i = k + 1 := by omega
      have hk' : i + k + 1 - (i + 1) = k := by omega
      rw [hk, hk', List.getElem?_cons_succ]
      by_cases hin : k < bs.length
      · rw [if_pos (by omega), if_pos (by omega)]
      · rw [if_neg (by omega), if_neg (by omega), if_neg (by omega)]

/-- Levels written from bit 0 to a cleared word make the sample. -/
theorem writeBits_zero (bits : List Level) (h : bits.length ≤ 16) : writeBits 0 0 bits = sampleWord bits := by
  apply BitVec.eq_of_getLsbD_eq
  intro j hj
  rw [getLsbD_writeBits bits 0 0 j (by omega), getLsbD_sampleWord bits j hj]
  split
  next => rfl
  next hout => simp [List.getElem?_eq_none (show bits.length ≤ j by omega)]

end Sys2Proof.Proofs
end

section
/-! PROOFS. A round of the engine (41_hw_assisted_acquisition.md R83): one pulse, the `N` pulses, and the end at a full queue. -/

namespace Sys2Proof.Proofs

open Sys2Proof.Machine Sys2Proof.Safety

/-- A running engine with both its lines: it can do everything a round asks for. -/
structure EngineHasLines (s : State) : Prop where
  live : engineLive s = true
  clock : s.sckOe = true
  data : s.sdoIn = true

variable {s : State}

/-- `s` after the pulses of the levels `bits`: they are read and written from bit `E_BIT` on, and the clock is back at `IDLE`. -/
def afterPulses (bits rest : List Level) (s : State) : State :=
  { s with
    eAcc := writeBits s.eAcc s.eBit bits, device := rest, sckOut := s.idle, sckUnset := false,
    trace := s.trace ++ pulses s.active s.idle bits }

theorem engineStep_of_capt_listed {b : Level} {rest : List Level} (h : EngineHasLines s) (he : s.eSeq = .capt)
    (hi : s.eBit < s.n) (hd : s.device = b :: rest) :
    engineStep s = .next { s with
      eSeq := .fall, eAcc := writeBit s.eAcc s.eBit b, device := rest, trace := s.trace ++ [.sdo b] } := by
  rw [engineStep_of_capt h.live he hi h.data, drawLevel_of_cons hd]
  rfl

/-- `RISE`, `CAPT` and `FALL` make one pulse (R85, R86); the loop's end decides where it leads. -/
theorem iterate_engineStep_pulse {b : Level} {rest : List Level} (h : EngineHasLines s) (he : s.eSeq = .rise)
    (hi : s.eBit < s.n) (hd : s.device = b :: rest) :
    iterate engineStep 3 s = .next (engineNextBit (gotoEngine .fall (afterPulses [b] rest s))) := by
  have hrise := engineStep_of_rise h.live he hi h.clock
  have hlines : EngineHasLines (gotoEngine .capt (driveSck s.active s)) := { h with }
  have hcapt := engineStep_of_capt_listed hlines rfl hi hd
  rw [iterate_succ_of_next 2 hrise, iterate_succ_of_next 1 hcapt]
  refine (iterate_succ_of_next 0 (engineStep_of_fall ?live rfl ?bit ?clock)).trans ?_
  case live => exact h.live
  case bit => exact hi
  case clock => exact h.clock
  simp [iterate, afterPulses, pulses, writeBits, driveSck, gotoEngine, State.active, State.idle]

/-- The pulses of the first level, then those of the others from the next bit on, are the pulses of all the levels. -/
theorem afterPulses_cons (b : Level) (bs rest : List Level) (s : State) :
    afterPulses bs rest (gotoEngine .rise { afterPulses [b] (bs ++ rest) s with eBit := s.eBit + 1 }) =
      gotoEngine .rise { afterPulses (b :: bs) rest s with eBit := s.eBit + 1 } := by
  simp [afterPulses, pulses, writeBits, gotoEngine, State.active, State.idle]

/-- The bit loop: from `RISE` to `EMIT` in three steps a level, when the levels are those of the bits that are left. -/
theorem iterate_engineStep_pulses (bits : List Level) {rest : List Level} (h : EngineHasLines s) (he : s.eSeq = .rise)
    (hne : bits ≠ []) (hlen : s.eBit + bits.length = s.n) (hd : s.device = bits ++ rest) :
    iterate engineStep (3 * bits.length) s =
      .next (gotoEngine .emit { afterPulses bits rest s with eBit := s.n - 1 }) := by
  induction bits generalizing s with
  | nil => exact absurd rfl hne
  | cons b bs ih =>
    rw [List.length_cons] at hlen
    have hpulse := iterate_engineStep_pulse (rest := bs ++ rest) h he (by omega) hd
    rcases eq_or_ne bs [] with rfl | hbs
    · have hlast : ¬ s.eBit + 1 < s.n := (Nat.le_of_eq hlen.symm).not_gt
      have hbit : s.eBit = s.n - 1 := Nat.eq_sub_of_add_eq hlen
      rw [← hbit]
      exact hpulse.trans (congrArg Host.Outcome.next (engineNextBit_of_last hlast))
    · have hmore : s.eBit + 1 < s.n := by have := List.length_pos_iff.2 hbs; omega
      have hnext := hpulse.trans (congrArg Host.Outcome.next (engineNextBit_of_lt hmore))
      rw [List.length_cons, Nat.mul_succ, Nat.add_comm, iterate_add_of_next _ hnext]
      have hlines : EngineHasLines (gotoEngine .rise { afterPulses [b] (bs ++ rest) s with eBit := s.eBit + 1 }) :=
        { h with }
      have hrest := ih hlines rfl hbs ((Nat.succ_add_eq_add_succ _ _).trans hlen) rfl
      rw [afterPulses_cons] at hrest
      exact hrest

/-- `s` at `EMIT` with the word of the levels `bits`, its pulses done and the clock at `IDLE` (R87). -/
def atEmit (bits rest : List Level) (s : State) : State :=
  { s with
    eSeq := .emit, eAcc := sampleWord bits, eBit := s.n - 1, device := rest, sckOut := s.idle, sckUnset := false,
    trace := s.trace ++ .sck s.idle :: pulses s.active s.idle bits }

/-- A round up to its word, which does not look at the queue: `HOLD` and `N` pulses. -/
theorem iterate_engineStep_atEmit {bits rest : List Level} (h : EngineHasLines s) (he : s.eSeq = .hold)
    (hlen : bits.length = s.n) (hd : s.device = bits ++ rest) :
    iterate engineStep (3 * s.n + 1) s = .next (atEmit bits rest s) := by
  have hne : bits ≠ [] := List.ne_nil_of_length_pos (hlen ▸ n_pos s)
  have hlines : EngineHasLines (gotoEngine .rise { driveSck s.idle s with eAcc := 0, eBit := 0 }) := { h with }
  have hpulses := iterate_engineStep_pulses bits hlines rfl hne ((Nat.zero_add _).trans hlen) hd
  rw [iterate_succ_of_next _ (engineStep_of_hold h.live he h.clock), ← hlen, hpulses]
  have hword : writeBits 0#16 0 bits = sampleWord bits := writeBits_zero bits (hlen ▸ n_le_sixteen s)
  simp [atEmit, afterPulses, gotoEngine, driveSck, hword, State.active, State.idle, State.n]

/-- Moves that change nothing can be repeated. -/
theorem iterate_of_fixed {f : State → Result} (h : f s = .next s) (k : Nat) : iterate f k s = .next s := by
  induction k with
  | zero => rfl
  | succ k ih => rw [iterate_succ_of_next k h, ih]

/-- Settles O60: the round reaches `EMIT`; there the queue's policy holds the engine for good or sends it on. -/
theorem engineRoundAtFullQueue : Obligations.EngineRoundAtFullQueue := by
  intro s bits rest hl he ho hi hfull hd hlen
  have hemit := iterate_engineStep_atEmit ⟨hl, ho, hi⟩ he hlen hd
  constructor
  · intro hp k
    have hstall : engineStep (atEmit bits rest s) = .next (atEmit bits rest s) :=
      engineStep_of_emit_stall hl rfl hfull hp
    rw [iterate_add_of_next k hemit]
    exact iterate_of_fixed hstall k
  · intro hp
    have hdrop := engineStep_of_emit_dropNew (s := atEmit bits rest s) hl rfl hfull hp
    have hsettle := engineStep_of_settle (s := gotoEngine .settle (atEmit bits rest s)) hl rfl ho
    rw [iterate_add_of_next 2 hemit, iterate_succ_of_next 1 hdrop]
    refine (iterate_succ_of_next 0 hsettle).trans ?_
    simp [iterate, atEmit, gotoEngine, driveSck, engineTrace, he]

end Sys2Proof.Proofs
end

section
/-! PROOFS. The fields of a command word (30_encoding.md R54, R55) and the decoder against the encoder (R68). -/

namespace Sys2Proof.Proofs

variable {w : CmdWord} {i : Instr}

/-! ### Fields -/

@[simp] theorem opField_commandWord (op : BitVec 4) (arg : BitVec 12) : opField (commandWord op arg) = op :=
  BitVec.extractLsb'_append_eq_left

@[simp] theorem idxField_commandWord (op : BitVec 4) (arg : BitVec 12) : idxField (commandWord op arg) = arg :=
  BitVec.extractLsb'_append_eq_right

/-- A word is its `op` and its `arg`. -/
theorem commandWord_fields (w : CmdWord) : commandWord (opField w) (idxField w) = w :=
  BitVec.extractLsb'_append_extractLsb'

theorem commandWord_eq_iff {op : BitVec 4} {arg : BitVec 12} :
    commandWord op arg = w ↔ opField w = op ∧ idxField w = arg := by
  constructor
  · rintro rfl
    exact ⟨opField_commandWord op arg, idxField_commandWord op arg⟩
  · rintro ⟨rfl, rfl⟩
    exact commandWord_fields w

/-- The bits above `en` are `op` and the must-be-zero bits. -/
theorem highBits_eq_append (w : CmdWord) : w.extractLsb' 1 15 = opField w ++ w.extractLsb' 1 11 :=
  (BitVec.extractLsb'_append_extractLsb'_eq_extractLsb' (x := w) (len₂ := 4) (len₁ := 11) rfl).symm

theorem highBits_of_fields {op : BitVec 4} (hop : opField w = op) (hmbz : w.extractLsb' 1 11 = 0#11) :
    w.extractLsb' 1 15 = op ++ 0#11 := by
  rw [highBits_eq_append, hop, hmbz]

theorem lowBit_eq_en (w : CmdWord) : w.extractLsb' 0 1 = BitVec.ofBool (enField w) := by
  rw [enField, ← BitVec.setWidth_one, BitVec.setWidth_eq_extractLsb' (by decide)]

/-- A word of `SETPRESS` or `SETRELEASE` is an `op`, 11 zeros, and any `en` (R55). -/
theorem commandWord_enArg_of_highBits {op : BitVec 4} (h : w.extractLsb' 1 15 = op ++ 0#11) :
    commandWord op (enArg (enField w)) = w :=
  calc commandWord op (enArg (enField w))
    _ = (op ++ 0#11) ++ BitVec.ofBool (enField w) := BitVec.append_assoc'
    _ = w.extractLsb' 1 15 ++ w.extractLsb' 0 1 := by rw [h, lowBit_eq_en]
    _ = w := BitVec.extractLsb'_append_extractLsb' (w := 15) (len := 1)

/-! ### The decoder -/

/-- `CHANNEL` is the one row without a must-be-zero bit. -/
theorem decode_of_channel (h : opField w = 0x3#4) : decode w = .command (.channel (idxField w).toNat) := by
  have hpoll : w ≠ 0x1000#16 := by rintro rfl; exact absurd h (by decide)
  have hsample : w ≠ 0x2000#16 := by rintro rfl; exact absurd h (by decide)
  simp [decode, hpoll, hsample, h]

theorem decode_encode (h : i.wellFormed = true) : decode (encode i) = .command i := by
  cases i with
  | poll | sample | count | teardown => decide
  | channel idx =>
    have hidx : idx < 2 ^ 12 := of_decide_eq_true h
    rw [encode, decode_of_channel (opField_commandWord _ _), idxField_commandWord, BitVec.toNat_ofNat, Nat.mod_eq_of_lt hidx]
  | setpress en | setrelease en => cases en <;> decide

theorem decode_of_encode_eq (h : i.wellFormed = true) (hw : encode i = w) : decode w = .command i :=
  hw ▸ decode_encode h

theorem encode_of_decode (h : decode w = .command i) : i.wellFormed = true ∧ encode i = w := by
  unfold decode at h
  split_ifs at h with hpoll hsample hchannel hcount hteardown hpress hrelease <;> cases h
  · exact ⟨rfl, hpoll.symm⟩
  · exact ⟨rfl, hsample.symm⟩
  · refine ⟨decide_eq_true (idxField w).isLt, ?_⟩
    rw [encode, BitVec.ofNat_toNat, BitVec.setWidth_eq]
    exact commandWord_eq_iff.2 ⟨hchannel, rfl⟩
  · exact ⟨rfl, hcount.symm⟩
  · exact ⟨rfl, hteardown.symm⟩
  · exact ⟨rfl, commandWord_enArg_of_highBits hpress⟩
  · exact ⟨rfl, commandWord_enArg_of_highBits hrelease⟩

/-- Settles O1: the encoder's fields are read back by the branch of the decoder that tests for them. -/
theorem decodeOfEncodeIsInstruction : Obligations.DecodeOfEncodeIsInstruction :=
  fun _ h => decode_encode h

/-- Settles O2: each branch of the decoder fixes every bit of the word but the operand's. -/
theorem encodeOfDecodeIsWord : Obligations.EncodeOfDecodeIsWord :=
  fun _ _ h => encode_of_decode h

/-- Settles O4: each word evaluates. -/
theorem writtenOutWordsDecode : Obligations.WrittenOutWordsDecode := by
  unfold Obligations.WrittenOutWordsDecode
  decide

end Sys2Proof.Proofs
end

section
/-! PROOFS. The opcode map (30_encoding.md R57): the row that selects a word is the row of the command the word encodes. -/

namespace Sys2Proof.Proofs

variable {w : CmdWord} {i : Instr}

theorem exists_row_selects_encode (h : i.wellFormed = true) :
    ∃ r ∈ opcodeMap, r.mnemonic = i.mnemonic ∧ r.selects (encode i) = true := by
  cases i with
  | poll => exact Laws.OpcodeRow.poll h
  | sample => exact Laws.OpcodeRow.sample h
  | channel idx => exact Laws.OpcodeRow.channel idx h
  | count => exact Laws.OpcodeRow.count h
  | teardown => exact Laws.OpcodeRow.teardown h
  | setpress en => exact Laws.OpcodeRow.setpress en h
  | setrelease en => exact Laws.OpcodeRow.setrelease en h

/-- A row that masks no bit away selects one word. -/
theorem eq_of_selects_full_mask {name : String} {p : CmdWord} (h : (OpcodeRow.mk name p 0xFFFF).selects w = true) : w = p :=
  BitVec.and_allOnes.symm.trans (beq_iff_eq.1 h)

theorem opField_of_selects_channel (h : (OpcodeRow.mk "CHANNEL" 0x3000 0xF000).selects w = true) : opField w = 0x3#4 := by
  have hmask : opField 0xF000#16 = BitVec.allOnes 4 := by decide
  have hand : w &&& 0xF000#16 = 0x3000#16 := beq_iff_eq.1 h
  calc opField w
    _ = opField w &&& opField 0xF000#16 := by rw [hmask, BitVec.and_allOnes]
    _ = opField (w &&& 0xF000#16) := BitVec.extractLsb'_and.symm
    _ = 0x3#4 := by rw [hand]; decide

/-- A row that masks `CMD[0]` away fixes the bits above it. -/
theorem highBits_of_selects {name : String} {p : CmdWord} (h : (OpcodeRow.mk name p 0xFFFE).selects w = true) :
    w.extractLsb' 1 15 = p.extractLsb' 1 15 := by
  have hmask : (0xFFFE#16).extractLsb' 1 15 = BitVec.allOnes 15 := by decide
  have hand : w &&& 0xFFFE#16 = p := beq_iff_eq.1 h
  rw [← hand, BitVec.extractLsb'_and, hmask, BitVec.and_allOnes]

/-- A word that a row selects is a command of that row's name. -/
theorem exists_command_of_selects {r : OpcodeRow} (hr : r ∈ opcodeMap) (h : r.selects w = true) :
    ∃ i : Instr, i.mnemonic = r.mnemonic ∧ decode w = .command i := by
  simp only [opcodeMap, List.mem_cons, List.not_mem_nil, or_false] at hr
  rcases hr with rfl | rfl | rfl | rfl | rfl | rfl | rfl
  · exact ⟨.poll, rfl, eq_of_selects_full_mask h ▸ by decide⟩
  · exact ⟨.sample, rfl, eq_of_selects_full_mask h ▸ by decide⟩
  · exact ⟨_, rfl, decode_of_channel (opField_of_selects_channel h)⟩
  · exact ⟨.count, rfl, eq_of_selects_full_mask h ▸ by decide⟩
  · exact ⟨.teardown, rfl, eq_of_selects_full_mask h ▸ by decide⟩
  · have hbits := (highBits_of_selects h).trans (by decide : _ = 0x6#4 ++ 0#11)
    exact ⟨.setpress _, rfl, decode_of_encode_eq rfl (commandWord_enArg_of_highBits hbits)⟩
  · have hbits := (highBits_of_selects h).trans (by decide : _ = 0x7#4 ++ 0#11)
    exact ⟨.setrelease _, rfl, decode_of_encode_eq rfl (commandWord_enArg_of_highBits hbits)⟩

theorem row_eq_of_mnemonic_eq : ∀ r ∈ opcodeMap, ∀ r' ∈ opcodeMap, r.mnemonic = r'.mnemonic → r = r' := by decide

/-- Settles O3: a selected word is a command of the row's name, and no two rows have one name. -/
theorem decodeFollowsOpcodeMap : Obligations.DecodeFollowsOpcodeMap := by
  intro w
  refine ⟨?_, ?_, ?_⟩
  · intro i h
    obtain ⟨hwf, rfl⟩ := encode_of_decode h
    exact exists_row_selects_encode hwf
  · intro why h r hr
    by_contra hsel
    obtain ⟨i, -, hi⟩ := exists_command_of_selects hr (Bool.eq_true_of_not_eq_false hsel)
    cases h.symm.trans hi
  · intro r hr r' hr' h h'
    obtain ⟨i, hname, hi⟩ := exists_command_of_selects hr h
    obtain ⟨i', hname', hi'⟩ := exists_command_of_selects hr' h'
    cases hi.symm.trans hi'
    exact row_eq_of_mnemonic_eq r hr r' hr' (hname.symm.trans hname')

end Sys2Proof.Proofs
end

section
/-! PROOFS. The reserved words (30_encoding.md R58, R59) and what a word from the port is answered (60_exceptions.md R130, R137). -/

namespace Sys2Proof.Proofs

open Sys2Proof.Machine

variable {s : State} {w : CmdWord}

/-- Which words are commands, by their fields (R57). -/
theorem exists_command_iff : (∃ i, decode w = .command i) ↔
    opField w = 3#4 ∨
    ((opField w = 1#4 ∨ opField w = 2#4 ∨ opField w = 4#4 ∨ opField w = 5#4) ∧ idxField w = 0#12) ∨
    ((opField w = 6#4 ∨ opField w = 7#4) ∧ w.extractLsb' 1 11 = 0#11) := by
  constructor
  · rintro ⟨i, h⟩
    obtain ⟨-, rfl⟩ := encode_of_decode h
    cases i with
    | poll | sample | count | teardown => decide
    | channel idx => exact .inl (opField_commandWord _ _)
    | setpress en | setrelease en => cases en <;> decide
  · rintro (hop | ⟨hop, harg⟩ | ⟨hop, hmbz⟩)
    · exact ⟨_, decode_of_channel hop⟩
    · rcases hop with hop | hop | hop | hop <;> have hw := commandWord_eq_iff.2 ⟨hop, harg⟩
      · exact ⟨.poll, decode_of_encode_eq rfl hw⟩
      · exact ⟨.sample, decode_of_encode_eq rfl hw⟩
      · exact ⟨.count, decode_of_encode_eq rfl hw⟩
      · exact ⟨.teardown, decode_of_encode_eq rfl hw⟩
    · rcases hop with hop | hop <;> have hw := commandWord_enArg_of_highBits (highBits_of_fields hop hmbz)
      · exact ⟨.setpress _, decode_of_encode_eq rfl hw⟩
      · exact ⟨.setrelease _, decode_of_encode_eq rfl hw⟩

theorem exists_reserved_iff : (∃ why, decode w = .reserved why) ↔ ¬ ∃ i, decode w = .command i := by
  cases h : decode w <;> simp

/-- Of the 16 values of `op` one needs no zero bits, four need `arg` = 0, two need `CMD[11:1]` = 0, and nine are reserved. -/
theorem not_commandFields_iff (argZero mbzZero : Prop) : ∀ op : BitVec 4,
    ¬ (op = 3#4 ∨ ((op = 1#4 ∨ op = 2#4 ∨ op = 4#4 ∨ op = 5#4) ∧ argZero) ∨ ((op = 6#4 ∨ op = 7#4) ∧ mbzZero)) ↔
      (op = 0#4 ∨ 8#4 ≤ op ∨ ((op = 1#4 ∨ op = 2#4 ∨ op = 4#4 ∨ op = 5#4) ∧ ¬ argZero) ∨
        ((op = 6#4 ∨ op = 7#4) ∧ ¬ mbzZero)) := by
  by_cases harg : argZero <;> by_cases hmbz : mbzZero <;> simp only [harg, hmbz] <;> decide

theorem runWord_of_command {i : Instr} (h : decode w = .command i) : runWord w s = exec i s := by
  rw [runWord, h]

theorem runWord_eq_illegalWord {why : Reserved} (h : decode w = .reserved why) : runWord w s = illegalWord s := by
  rw [runWord, h]

/-- A reserved word is answered with a fault, and the answer is its whole effect. -/
theorem runWord_of_reserved {why : Reserved} (h : decode w = .reserved why) (ho : s.portOpen = true) :
    runWord w s = .next { s with rspLog := s.rspLog ++ [if s.failed then 4#3 ++ s.errval else 0x10000#19] } := by
  rw [runWord_eq_illegalWord h, illegalWord]
  by_cases hf : s.failed = true
  · rw [command_of_failed _ ho hf, if_pos hf]
    rfl
  · rw [command_of_open _ ho (Bool.eq_false_of_not_eq_true hf), if_neg hf, raiseFault, faultWord_illegalCommand]
    rfl

/-- Settles O18: the reserved words are those whose fields are no command's. -/
theorem reservedWordsAnswerIllegalCommand : Obligations.ReservedWordsAnswerIllegalCommand := by
  intro w
  refine ⟨?_, ?_⟩
  · rw [exists_reserved_iff, exists_command_iff]
    exact not_commandFields_iff _ _ _
  · intro s why h ho hf
    simpa [hf] using runWord_of_reserved h ho

@[simp] theorem releaseResources_rspLog : (releaseResources s).rspLog = s.rspLog := by
  cases hb : s.backend
  case bitbang => rw [releaseResources_of_bitbang hb]
  case hwassist => rw [releaseResources_of_hwassist hb]

/-- Settles O23: every row of a word's acceptance responds at once, but for the two in which a `POLL` in `READY` goes on. -/
theorem oneResponsePerAcceptedWord : Obligations.OneResponsePerAcceptedWord := by
  intro w s t h
  rcases runWord_eq_next h with ⟨i, hd, he⟩ | ⟨-, f, rfl⟩
  swap
  · exact .inl ⟨⟨_, rfl⟩, rfl⟩
  obtain ⟨ho, ⟨f, rfl, -⟩ | ⟨-, hrow⟩⟩ := exec_eq_next he
  · exact .inl ⟨⟨_, rfl⟩, rfl⟩
  have hseq := seqAfterRespond_of_open ho
  rcases hrow with ⟨d, rfl⟩ | ⟨en, rfl, rfl⟩ | ⟨en, rfl, rfl⟩ | ⟨rfl, -, -, rfl⟩ | ⟨rfl, hs, -, -, rfl⟩ |
    ⟨rfl, hs, -, -, v, rest, -, rfl⟩
  · exact .inl ⟨⟨_, rfl⟩, hseq⟩
  · exact .inl ⟨⟨_, rfl⟩, hseq⟩
  · exact .inl ⟨⟨_, rfl⟩, hseq⟩
  · exact .inl (by simp [respond, hseq])
  · exact .inr ⟨hd, rfl, hs, .inl rfl⟩
  · exact .inr ⟨hd, rfl, hs, .inr rfl⟩

end Sys2Proof.Proofs
end

section
/-! PROOFS. A step of the host runs the word it presents (30_encoding.md R54, 46_operation_classes.md R168). -/

namespace Sys2Proof.Proofs

open Sys2Proof.Machine

variable {s : State} {w : CmdWord} {rest : List HostAct}

theorem hostTurn_of_cmd (hh : s.host = .cmd w :: rest) (ho : s.portOpen = true) :
    hostTurn s = runWord w { s with host := rest } := by
  simp [hostTurn, hh, ho]

/-- A position at which the port accepts has no step of the sequencer's own (10_state.md R25). -/
theorem moves_eq_false_of_accepts {p : SeqPos} (h : p.accepts = true) : p.moves = false := by
  cases p with
  | ready | evwait => rfl
  | acq | scan => cases h

theorem seqEnabled_of_open (ho : s.portOpen = true) : seqEnabled s = false := moves_eq_false_of_accepts ho

/-- With the engine unable to move the host is the only agent that can. -/
theorem enabledAgents_of_cmd (hh : s.host = .cmd w :: rest) (ho : s.portOpen = true) (he : engineEnabled s = false) :
    enabledAgents s = [.host] := by
  simp [enabledAgents, hostEnabled, hh, ho, seqEnabled_of_open ho, he]

/-- Settles O5: the host is the mover on both schedules, and its move is `runWord`. -/
theorem stepRunsPresentedCommand : Obligations.StepRunsPresentedCommand := by
  intro s u w rest ts hh ho hsched
  have hrun : step s = runWord w u ∧ u.portOpen = true := by
    rcases hsched with ⟨ht, rfl⟩ | ⟨ht, he, rfl⟩
    · exact ⟨(step_of_turns_cons ht).trans (hostTurn_of_cmd hh ho), ho⟩
    · exact ⟨(step_of_one_agent ht (enabledAgents_of_cmd hh ho he)).trans (hostTurn_of_cmd hh ho), ho⟩
  obtain ⟨hstep, hou⟩ := hrun
  rw [hstep]
  exact ⟨rfl, fun i => runWord_of_command, fun why h => runWord_of_reserved h hou⟩

theorem placeCommand_of_open (w : CmdWord) (ho : s.portOpen = true) :
    placeCommand w s = { s with host := .cmd w :: s.host, turns := .host :: s.turns } := by
  simp [placeCommand, ho]

theorem decode_of_decodeTableWord {nbits n : Nat} {i : Instr} (h : decodeTableWord nbits n = some i) :
    decode (tableWord nbits n) = .command i := by
  unfold decodeTableWord at h
  split at h
  next i' hd => exact hd.trans (congrArg Decoded.command (Option.some.inj h))
  next => contradiction

/-- Settles O6: with the placed word taken and its turn gone the state is the one before the placing. -/
theorem fetchedWordIsExecuted : Obligations.FetchedWordIsExecuted := by
  intro s n i ho h
  rw [State.withFetchWord, placeCommand_of_open _ ho]
  obtain ⟨-, hexec, -⟩ := stepRunsPresentedCommand
    { s with host := .cmd (tableWord 16 n) :: s.host, turns := .host :: s.turns } s _ s.host s.turns rfl ho (.inl ⟨rfl, rfl⟩)
  exact hexec i (decode_of_decodeTableWord h)

end Sys2Proof.Proofs
end

section
/-! PROOFS. The clock wire under every step (40 R72 to R76, 41 R84 to R89): one rule for each update, then one for each kind of move. -/

namespace Sys2Proof.Proofs

open Sys2Proof.Machine Sys2Proof.Safety

variable {s t : State}

/-! ### Updates the clock invariant does not see, and clock writes -/

theorem clockInv_inputs (h : ClockInv s) (hs : List HostAct) (ts : List Agent) (bs : List Level) (d : Nat) :
    ClockInv { s with host := hs, turns := ts, device := bs, draws := d } := ⟨h.wire⟩

theorem clockInv_raiseFault (h : ClockInv s) (f : CmdFault) : ClockInv (raiseFault f s) := ⟨h.wire⟩

theorem clockInv_setPressFlag (h : ClockInv s) (en : Bool) : ClockInv (setPressFlag en s) := ⟨h.wire⟩

theorem clockInv_setReleaseFlag (h : ClockInv s) (en : Bool) : ClockInv (setReleaseFlag en s) := ⟨h.wire⟩

theorem clockInv_respond (h : ClockInv s) (ho : s.portOpen = true) (st : Status) (d : Word) :
    ClockInv (respond st d s) := by
  rw [respond_of_open st d ho]
  exact ⟨h.wire⟩

/-- A block that drives no clock has nothing to keep. -/
theorem clockInv_of_not_driven (h : s.sckOe = false) : ClockInv s where
  wire ho := absurd (h.symm.trans ho) (by decide)

/-- A written level stands on a driven wire at once (20_memory.md R43). -/
theorem driveSck_wire (v : Level) (ho : s.sckOe = true) : (driveSck v s).wire = some v := by
  simp [State.wire, ho]

/-! ### Moves of the sequencer's position -/

/-- The pins are the engine's on `HWASSIST` (10_state.md R27); on `BITBANG` the new position must allow what the old one did. -/
theorem clockInv_gotoSeq {p : SeqPos} (h : ClockInv s)
    (hsub : s.backend = .bitbang → seqWires s ⊆ seqWires (gotoSeq p s)) : ClockInv (gotoSeq p s) where
  wire ho := by
    have hw : s.wire ∈ clockWires s := h.wire ho
    cases hb : s.backend
    case bitbang =>
      simp only [clockWires, gotoSeq_backend, hb] at hw ⊢
      exact hsub hb hw
    case hwassist =>
      simp only [clockWires, gotoSeq_backend, hb] at hw ⊢
      exact hw

/-- A clock write of the sequencer leads to a position that allows the written level. -/
theorem clockInv_gotoSeq_driveSck {p : SeqPos} {v : Level} (hb : s.backend = .bitbang)
    (hv : some v ∈ seqWires (gotoSeq p s)) : ClockInv (gotoSeq p (driveSck v s)) where
  wire ho := by
    have hw : (gotoSeq p (driveSck v s)).wire = some v := driveSck_wire v ho
    rw [hw]
    simp only [clockWires, gotoSeq_backend, driveSck_backend, hb]
    exact hv

/-- After bit `i` the clock is at `IDLE`, whether a bit is left or not (40 R75). -/
theorem seqWires_afterFall (i : Nat) : seqWires (gotoSeq (afterFall i s.n) s) = [some s.idle] := by
  unfold afterFall
  split <;> rfl

/-- A dispatch leaves the clock alone: on to another of its positions, or to its end. -/
theorem seqWires_subset_of_dispatch {p : SeqPos} (hs : s.seq.pollState = .sampleReady)
    (hp : p.pollState = .sampleReady ∨ p = .ready) : seqWires s ⊆ seqWires (gotoSeq p s) := by
  have hactive : seqWires s = [some s.active] := by
    obtain ⟨i, hi | hi⟩ := pollState_eq_sampleReady.1 hs <;> simp [seqWires, hi]
  rw [hactive]
  refine List.cons_subset.2 ⟨?_, List.nil_subset _⟩
  rcases hp with hp | rfl
  · obtain ⟨i, rfl | rfl⟩ := pollState_eq_sampleReady.1 hp <;> exact List.mem_singleton_self _
  · simp [seqWires, State.active]

theorem acqStep_keeps_clockInv {i : Nat} {ph : Phase} (hb : s.backend = .bitbang) (h : ClockInv s) (hs : s.seq = .acq i ph)
    (hstep : acqStep i ph s = .next t) : ClockInv t := by
  rcases acqStep_eq_next hstep with ⟨-, -, -, rfl⟩ | ⟨-, -, -, rfl⟩ | ⟨rfl, -, -, rfl⟩ | ⟨-, -, -, rfl⟩ | ⟨-, -, -, rfl⟩
  · exact clockInv_gotoSeq_driveSck hb (List.mem_singleton_self _)
  · exact clockInv_gotoSeq_driveSck hb (List.mem_singleton_self _)
  · have hfall : ClockInv (gotoSeq (.acq i .fall) s) := clockInv_gotoSeq h fun _ => by simp [seqWires, hs, State.active]
    rw [drawLevel_frame]
    exact ⟨hfall.wire⟩
  · exact clockInv_gotoSeq_driveSck hb (by simp [seqWires_afterFall])
  · have hnext : ClockInv (gotoSeq (.scan 0) (driveSck s.active s)) :=
      clockInv_gotoSeq_driveSck hb (List.mem_singleton_self _)
    exact ⟨hnext.wire⟩

theorem scanStep_keeps_clockInv {i : Nat} (h : ClockInv s) (hs : s.seq = .scan i) (hstep : scanStep i s = .next t) :
    ClockInv t := by
  have hscan : s.seq.pollState = .sampleReady := by rw [hs]; rfl
  rcases scanStep_eq_next hstep with ⟨k, -, -, rfl⟩ | ⟨-, -, rfl⟩ | ⟨-, rfl⟩
  · have hwait := clockInv_gotoSeq (p := .evwait i) h fun _ => seqWires_subset_of_dispatch hscan (.inl rfl)
    exact ⟨hwait.wire⟩
  · exact clockInv_gotoSeq h fun _ => seqWires_subset_of_dispatch hscan (.inl rfl)
  · have hend : seqAfterRespond s.seq = .ready := by rw [hs]; rfl
    have hready := clockInv_gotoSeq (p := seqAfterRespond s.seq) h fun _ => seqWires_subset_of_dispatch hscan (.inr hend)
    exact ⟨hready.wire⟩

theorem seqStep_keeps_clockInv (hinv : Inv s) (h : ClockInv s) (hstep : seqStep s = .next t) : ClockInv t := by
  rcases seqStep_eq_next hstep with ⟨-, rfl⟩ | ⟨i, ph, hs, hacq⟩ | ⟨i, hs, hscan⟩
  · exact h
  · exact acqStep_keeps_clockInv (bitbang_of_acq hinv hs) h hs hacq
  · exact scanStep_keeps_clockInv h hs hscan

/-! ### Moves of the engine's position -/

theorem hwassist_of_engineLive (hl : engineLive s = true) : s.backend = .hwassist := by
  cases hb : s.backend
  case hwassist => rfl
  case bitbang => simp [engineLive, hb, Backend.hasEngine] at hl

/-- The engine goes on without a clock write only where its new position allows what the old one did. -/
theorem clockInv_gotoEngine {p : EnginePos} (hb : s.backend = .hwassist) (h : ClockInv s)
    (hsub : engineWires s ⊆ engineWires (gotoEngine p s)) : ClockInv (gotoEngine p s) where
  wire ho := by
    have hw : s.wire ∈ clockWires s := h.wire ho
    simp only [clockWires, gotoEngine_backend, hb] at hw ⊢
    exact hsub hw

/-- A clock write of the engine leads to a position that allows the written level. -/
theorem clockInv_gotoEngine_driveSck {p : EnginePos} {v : Level} (hb : s.backend = .hwassist)
    (hv : some v ∈ engineWires (gotoEngine p s)) : ClockInv (gotoEngine p (driveSck v s)) where
  wire ho := by
    have hw : (gotoEngine p (driveSck v s)).wire = some v := driveSck_wire v ho
    rw [hw]
    simp only [clockWires, gotoEngine_backend, driveSck_backend, hb]
    exact hv

/-- After a bit the clock is at `IDLE`, whether a bit is left or not (41 R85, R87). -/
theorem clockInv_engineNextBit_driveSck (hb : s.backend = .hwassist) : ClockInv (engineNextBit (driveSck s.idle s)) := by
  unfold engineNextBit
  split
  next =>
    have hrise : ClockInv (gotoEngine .rise (driveSck s.idle s)) :=
      clockInv_gotoEngine_driveSck hb (List.mem_singleton_self _)
    exact ⟨hrise.wire⟩
  next => exact clockInv_gotoEngine_driveSck hb (List.mem_singleton_self _)

/-- `EMIT` leaves the clock at `IDLE`, where the engine holds and where it goes on (41 R87, R88). -/
theorem clockInv_engineEmit (hb : s.backend = .hwassist) (h : ClockInv s) (he : s.eSeq = .emit) :
    ClockInv (engineEmit s) := by
  have hsettle : ClockInv (gotoEngine .settle s) := clockInv_gotoEngine hb h (by simp [engineWires, he, State.idle])
  unfold engineEmit
  split
  next => exact ⟨hsettle.wire⟩
  next =>
    split
    · exact h
    · exact hsettle

theorem engineStep_keeps_clockInv (h : ClockInv s) (hstep : engineStep s = .next t) : ClockInv t := by
  rcases engineStep_eq_next hstep with ⟨-, rfl⟩ | ⟨hl, -, -, rfl⟩ | ⟨hl, -, -, -, rfl⟩ | ⟨hl, he, -, -, rfl⟩ |
    ⟨hl, -, -, -, rfl⟩ | ⟨hl, he, rfl⟩ | ⟨hl, -, -, rfl⟩
  · exact h
  all_goals have hb := hwassist_of_engineLive hl
  · have hrise : ClockInv (gotoEngine .rise (driveSck s.idle s)) :=
      clockInv_gotoEngine_driveSck hb (List.mem_singleton_self _)
    exact ⟨hrise.wire⟩
  · exact clockInv_gotoEngine_driveSck hb (List.mem_singleton_self _)
  · have hfall : ClockInv (gotoEngine .fall s) := clockInv_gotoEngine hb h (by simp [engineWires, he, State.active])
    rw [drawLevel_frame]
    exact ⟨hfall.wire⟩
  · exact clockInv_engineNextBit_driveSck hb
  · exact clockInv_engineEmit hb h he
  · exact clockInv_gotoEngine_driveSck hb (by simp [engineWires])

/-! ### Moves of the host, and every step -/

/-- `TEARDOWN` lets go of the clock on both backends (45_lifecycle.md R122). -/
theorem releaseResources_sckOe (s : State) : (releaseResources s).sckOe = false := by
  cases hb : s.backend
  case bitbang => rw [releaseResources_of_bitbang hb]
  case hwassist => rw [releaseResources_of_hwassist hb]

theorem exec_keeps_clockInv {i : Instr} (h : ClockInv s) (hstep : exec i s = .next t) : ClockInv t := by
  obtain ⟨ho, ⟨f, rfl, -⟩ | ⟨-, hrow⟩⟩ := exec_eq_next hstep
  · exact clockInv_raiseFault h _
  rcases hrow with ⟨d, rfl⟩ | ⟨en, -, rfl⟩ | ⟨en, -, rfl⟩ | ⟨-, -, -, rfl⟩ | ⟨-, hs, -, -, rfl⟩ | ⟨-, -, -, hb, w, rest, -, rfl⟩
  · exact clockInv_respond h ho _ _
  · exact clockInv_respond (clockInv_setPressFlag h en) ho _ _
  · exact clockInv_respond (clockInv_setReleaseFlag h en) ho _ _
  · exact clockInv_of_not_driven (releaseResources_sckOe s)
  · have hsame : seqWires (gotoSeq (.acq 0 .start) s) = seqWires s := by
      rw [seqWires, seqWires, hs]
      rfl
    exact clockInv_gotoSeq h fun _ => hsame ▸ List.Subset.refl _
  · have hscan := clockInv_gotoSeq (p := .scan 0) h fun hbb => absurd (hbb.symm.trans hb) (by decide)
    exact ⟨hscan.wire⟩

theorem runWord_keeps_clockInv {w : CmdWord} (h : ClockInv s) (hstep : runWord w s = .next t) : ClockInv t := by
  rcases runWord_eq_next hstep with ⟨i, -, hexec⟩ | ⟨-, f, rfl⟩
  · exact exec_keeps_clockInv h hexec
  · exact clockInv_raiseFault h _

theorem clockInv_acknowledge {i : Nat} (h : ClockInv s) (hs : s.seq = .evwait i) : ClockInv (acknowledge i s) := by
  have hwait : s.seq.pollState = .sampleReady := by rw [hs]; rfl
  have hscan := clockInv_gotoSeq (p := .scan (i + 1)) h fun _ => seqWires_subset_of_dispatch hwait (.inl rfl)
  exact ⟨hscan.wire⟩

theorem clockInv_resetBlock (st : Straps) (s : State) : ClockInv (resetBlock st s) :=
  ⟨(clockInv_resetWith s.plat st).wire⟩

theorem hostTurn_keeps_clockInv (h : ClockInv s) (hstep : hostTurn s = .next t) : ClockInv t := by
  have hinputs (rest : List HostAct) : ClockInv { s with host := rest } := ⟨h.wire⟩
  rcases hostTurn_eq_next hstep with rfl | ⟨w, rest, -, -, hword⟩ | ⟨i, rest, -, hs, rfl⟩ | ⟨st, rest, -, rfl⟩
  · exact h
  · exact runWord_keeps_clockInv (hinputs rest) hword
  · exact clockInv_acknowledge (hinputs rest) hs
  · exact clockInv_resetBlock st _

theorem agentTurn_keeps_clockInv {a : Agent} (hinv : Inv s) (h : ClockInv s) (hstep : agentTurn a s = .next t) :
    ClockInv t := by
  cases a with
  | host => exact hostTurn_keeps_clockInv h hstep
  | sequencer => exact seqStep_keeps_clockInv hinv h hstep
  | engine => exact engineStep_keeps_clockInv h hstep

/-- Settles O53: a step is a wait or one agent's move; a clock write leads to a position that allows its level, and every other move
to one that allows what stood on the wire. -/
theorem stepKeepsClockLevel : Obligations.StepKeepsClockLevel := by
  intro s t hinv h hstep
  rcases step_cases s with hwait | ⟨a, ts, d, hmove⟩
  · cases hwait.symm.trans hstep
    exact h
  · exact agentTurn_keeps_clockInv (inv_inputs hinv s.host ts s.device d) (clockInv_inputs h s.host ts s.device d)
      (hmove.symm.trans hstep)

end Sys2Proof.Proofs
end

section
/-! PROOFS. A command on a closed port (40 R78, 44 R119). -/

namespace Sys2Proof.Proofs

open Sys2Proof.Machine

variable {s : State}

/-- A presented word stays where it is while the port accepts nothing. -/
theorem hostTurn_of_cmd_closed {w : CmdWord} {rest : List HostAct} (hh : s.host = .cmd w :: rest)
    (hc : s.portOpen = false) : hostTurn s = .next s := by
  simp [hostTurn, hh, hc]

/-- Settles O7: the host is the mover, and on a closed port its move changes nothing. -/
theorem commandWaitsWhileBlockIsBusy : Obligations.CommandWaitsWhileBlockIsBusy := by
  intro s w rest ts hh hc ht
  exact (step_of_turns_cons ht).trans (hostTurn_of_cmd_closed hh hc)

/-- Settles O8: every command begins with the test of the port. -/
theorem execRefusesOnClosedPort : Obligations.ExecRefusesOnClosedPort := by
  intro i s hc
  obtain ⟨body, hbody⟩ := exec_is_command i s
  rw [hbody, command_of_closed body hc]

end Sys2Proof.Proofs
end

section
/-! PROOFS. The rows of the bit-bang acquisition (40 R72 to R76, 46 R168) and the edge of every pulse (R73). -/

namespace Sys2Proof.Proofs

open Sys2Proof.Machine Sys2Proof.Safety

variable {s t : State}

theorem seqStep_of_acq {i : Nat} {ph : Phase} (hs : s.seq = .acq i ph) : seqStep s = acqStep i ph s := by
  unfold seqStep
  rw [hs]

/-- Settles O28: each position's rule, with the read's level listed or free. -/
theorem acquisitionRows : Obligations.AcquisitionRows := by
  intro s i ho hd
  refine ⟨?start, ?rise, ?captListed, ?captFree, ?fall, ?final⟩
  case start => intro hs; rw [seqStep_of_acq hs, acqStep_of_start ho]; rfl
  case rise => intro hs hi; rw [seqStep_of_acq hs, acqStep_of_rise hi ho]; rfl
  case captListed =>
    intro hs hi b rest hdev
    rw [seqStep_of_acq hs, acqStep_of_capt hi hd, drawLevel_of_cons hdev]
    rfl
  case captFree =>
    intro hs hi hdev
    rw [seqStep_of_acq hs, acqStep_of_capt hi hd, drawLevel_of_nil hdev]
    exact ⟨_, rfl⟩
  case fall => intro hs hi; rw [seqStep_of_acq hs, acqStep_of_fall hi ho]; rfl
  case final => intro hs; rw [seqStep_of_acq hs, acqStep_of_final ho]; rfl

/-- The two clock levels are opposite (10_state.md R16). -/
theorem active_eq_not_idle (s : State) : s.active = !s.idle := by
  unfold State.active State.idle
  cases s.pol <;> rfl

/-- Settles O32: the clock invariant has the wire at `IDLE` before the write of `ACTIVE`. -/
theorem everyPulseRisesFromIdle : Obligations.EveryPulseRisesFromIdle := by
  intro s t i h hb hs hstep
  rw [seqStep_of_acq hs] at hstep
  rcases acqStep_eq_next hstep with ⟨hph, -⟩ | ⟨-, -, ho, rfl⟩ | ⟨hph, -⟩ | ⟨hph, -⟩ | ⟨hph, -⟩
  case inr.inl =>
    have hw : s.wire = some s.idle := by simpa [clockWires, hb, seqWires, hs] using h.wire ho
    exact ⟨hw, ho, driveSck_wire _ ho, active_eq_not_idle s⟩
  all_goals cases hph

end Sys2Proof.Proofs
end

section
/-! PROOFS. A whole bit-bang acquisition (40 R70): one pulse, the first `k` pulses, and the end. -/

namespace Sys2Proof.Proofs

open Sys2Proof.Machine Sys2Proof.Safety

variable {s : State}

/-! ### What a read takes from the device (20_memory.md R44) -/

/-- A read takes the head of the list, or advances the count of draws where the list is empty. -/
theorem drawLevel_takes (s : State) :
    (drawLevel s).2 = { s with device := s.device.tail, draws := s.draws + (1 - s.device.length) } := by
  cases hd : s.device
  case nil => rw [drawLevel_of_nil hd]; simp [hd]
  case cons b rest => rw [drawLevel_of_cons hd]; simp

/-- A read returns the listed level where there is one. -/
theorem listed_prefix_drawLevel (s : State) : s.device.take 1 <+: [(drawLevel s).1] := by
  cases hd : s.device
  case nil => exact List.nil_prefix
  case cons b rest => rw [drawLevel_of_cons hd]; simp

/-- Levels that begin as the list does, followed by one more level that does. -/
theorem take_succ_prefix_concat {listed bits : List Level} {b : Level} (hbits : listed.take bits.length <+: bits)
    (hb : (listed.drop bits.length).take 1 <+: [b]) : listed.take (bits.length + 1) <+: bits ++ [b] := by
  rw [List.take_add]
  rcases Nat.lt_or_ge bits.length listed.length with hlt | hge
  · have heq : listed.take bits.length = bits := hbits.eq_of_length (by simp; omega)
    rw [heq]
    exact (List.prefix_append_right_inj bits).2 hb
  · rw [List.drop_eq_nil_of_le hge, List.take_nil, List.append_nil]
    exact hbits.trans (List.prefix_append bits [b])

/-! ### The accumulator and the trace, one level more -/

/-- The capture of bit `i` adds level `i` to the word of the levels before it (40 R74). -/
theorem captureBit_sampleWord (bits : List Level) (b : Level) (h : bits.length < 16) :
    captureBit (sampleWord bits) bits.length b = sampleWord (bits ++ [b]) := by
  apply BitVec.eq_of_getLsbD_eq
  intro j hj
  have hclear : (sampleWord bits).getLsbD bits.length = false := by
    rw [getLsbD_sampleWord bits _ h, List.getElem?_eq_none le_rfl, Option.getD_none]
  have hcapture : (captureBit (sampleWord bits) bits.length b).getLsbD j =
      if j = bits.length then b else (sampleWord bits).getLsbD j := by
    cases b
    case true => exact getLsbD_writeBit _ _ _ true h
    case false =>
      split
      next hl => rw [hl]; exact hclear
      next => rfl
  rw [hcapture, getLsbD_sampleWord bits j hj, getLsbD_sampleWord (bits ++ [b]) j hj]
  rcases Nat.lt_trichotomy j bits.length with hlt | rfl | hgt
  · rw [if_neg hlt.ne, List.getElem?_append_left hlt]
  · simp
  · rw [if_neg hgt.ne', List.getElem?_eq_none hgt.le, List.getElem?_eq_none (by simp; omega)]

theorem pulses_concat (active idle : Level) (bits : List Level) (b : Level) :
    pulses active idle (bits ++ [b]) = pulses active idle bits ++ [.sck active, .sdo b, .sck idle] := by
  induction bits with
  | nil => rfl
  | cons c cs ih => simp [pulses, ih]

/-! ### The pulses -/

/-- `RISE`, `CAPT` and `FALL` make one pulse (R73 to R75), whether its level is listed or free. -/
theorem iterate_seqStep_pulse {i : Nat} (hs : s.seq = .acq i .rise) (hi : i < s.n) (ho : s.sckOe = true)
    (hd : s.sdoIn = true) :
    ∃ b, s.device.take 1 <+: [b] ∧ iterate seqStep 3 s = .next { s with
      acc := captureBit s.acc i b, device := s.device.tail, draws := s.draws + (1 - s.device.length),
      sckOut := s.idle, sckUnset := false, trace := s.trace ++ [.sck s.active, .sdo b, .sck s.idle],
      seq := afterFall i s.n } := by
  have hrise := (seqStep_of_acq hs).trans (acqStep_of_rise hi ho)
  have hcapt := (seqStep_of_acq (s := gotoSeq (.acq i .capt) (driveSck s.active s)) rfl).trans (acqStep_of_capt hi hd)
  refine ⟨_, listed_prefix_drawLevel (gotoSeq (.acq i .capt) (driveSck s.active s)), ?_⟩
  rw [iterate_succ_of_next 2 hrise, iterate_succ_of_next 1 hcapt, drawLevel_takes]
  refine (iterate_succ_of_next 0 ((seqStep_of_acq rfl).trans (acqStep_of_fall ?bit ?clock))).trans ?_
  case bit => exact hi
  case clock => exact ho
  simp [iterate, gotoSeq, driveSck, recordRead, State.idle, State.active, State.n]

/-- `s` after the start of an acquisition and the pulses that read `bits`, its position left out. -/
def acquiring (bits : List Level) (s : State) : State :=
  { s with
    acc := sampleWord bits, device := s.device.drop bits.length, draws := s.draws + (bits.length - s.device.length),
    sckOut := s.idle, sckUnset := false, trace := s.trace ++ .sck s.idle :: pulses s.active s.idle bits }

/-- Where an acquisition stands before pulse `k`, or after the last pulse (R168). -/
def beforePulse (k n : Nat) : SeqPos := if k < n then .acq k .rise else .acq n .final

theorem afterFall_eq_beforePulse (i n : Nat) : afterFall i n = beforePulse (i + 1) n := rfl

theorem seqStep_of_acqStart (hs : s.seq = .acq 0 .start) (ho : s.sckOe = true) :
    seqStep s = .next (gotoSeq (beforePulse 0 s.n) (acquiring [] s)) := by
  rw [seqStep_of_acq hs, acqStep_of_start ho, beforePulse, if_pos (n_pos s)]
  simp [acquiring, gotoSeq, driveSck, sampleWord, pulses, State.idle]

/-- One pulse more. -/
theorem iterate_seqStep_acquiring (bits : List Level) (hlt : bits.length < s.n) (ho : s.sckOe = true)
    (hd : s.sdoIn = true) :
    ∃ b, (s.device.drop bits.length).take 1 <+: [b] ∧
      iterate seqStep 3 (gotoSeq (beforePulse bits.length s.n) (acquiring bits s)) =
        .next (gotoSeq (beforePulse (bits.length + 1) s.n) (acquiring (bits ++ [b]) s)) := by
  have hs : (gotoSeq (beforePulse bits.length s.n) (acquiring bits s)).seq = .acq bits.length .rise := if_pos hlt
  obtain ⟨b, hb, hpulse⟩ := iterate_seqStep_pulse hs hlt ho hd
  refine ⟨b, hb, hpulse.trans ?_⟩
  have hword := captureBit_sampleWord bits b (hlt.trans_le (n_le_sixteen s))
  have hdraws : s.draws + (bits.length - s.device.length) + (1 - (s.device.length - bits.length)) =
      s.draws + (bits.length + 1 - s.device.length) := by omega
  simp [gotoSeq, acquiring, hword, hdraws, pulses_concat, afterFall_eq_beforePulse, State.idle, State.active, State.n]

/-- The bit loop: after the start and `k` pulses, `k` levels are read, the listed ones first. -/
theorem iterate_seqStep_pulses (hs : s.seq = .acq 0 .start) (ho : s.sckOe = true) (hd : s.sdoIn = true) (k : Nat)
    (hk : k ≤ s.n) :
    ∃ bits, bits.length = k ∧ s.device.take k <+: bits ∧
      iterate seqStep (3 * k + 1) s = .next (gotoSeq (beforePulse k s.n) (acquiring bits s)) := by
  induction k with
  | zero =>
    refine ⟨[], rfl, List.prefix_rfl, ?_⟩
    rw [iterate_succ_of_next 0 (seqStep_of_acqStart hs ho)]
    rfl
  | succ k ih =>
    obtain ⟨bits, rfl, hlisted, hrun⟩ := ih (Nat.le_of_succ_le hk)
    obtain ⟨b, hb, hpulse⟩ := iterate_seqStep_acquiring bits hk ho hd
    refine ⟨bits ++ [b], by simp, take_succ_prefix_concat hlisted hb, ?_⟩
    rw [show 3 * (bits.length + 1) + 1 = 3 * bits.length + 1 + 3 by omega, iterate_add_of_next 3 hrun, hpulse]

/-! ### The whole acquisition -/

/-- `s` after an acquisition that read `bits` (R76, R77). -/
def acquired (bits : List Level) (s : State) : State :=
  { s with
    acc := sampleWord bits, cur := sampleWord bits, device := s.device.drop bits.length,
    draws := s.draws + (bits.length - s.device.length), sckOut := s.active, sckUnset := false,
    trace := s.trace ++ acqTrace s.active s.idle bits, seq := .scan 0 }

/-- `ACQ_BB` reads `N` levels, the listed ones first and free ones where the list ends. -/
theorem iterate_seqStep_acquired (hs : s.seq = .acq 0 .start) (ho : s.sckOe = true) (hd : s.sdoIn = true) :
    ∃ bits, bits.length = s.n ∧ s.device.take s.n <+: bits ∧
      iterate seqStep (3 * s.n + 2) s = .next (acquired bits s) := by
  obtain ⟨bits, hlen, hlisted, hrun⟩ := iterate_seqStep_pulses hs ho hd s.n le_rfl
  refine ⟨bits, hlen, hlisted, ?_⟩
  have hpos : (gotoSeq (beforePulse s.n s.n) (acquiring bits s)).seq = .acq s.n .final := if_neg (lt_irrefl _)
  have hfinal := (seqStep_of_acq hpos).trans (acqStep_of_final (s := gotoSeq (beforePulse s.n s.n) (acquiring bits s)) ho)
  rw [iterate_add_of_next 1 hrun, iterate_succ_of_next 0 hfinal]
  simp [iterate, gotoSeq, driveSck, acquiring, acquired, acqTrace, State.active, State.idle]

/-- Settles O29: the `N` listed levels are the ones that are read. -/
theorem acquisitionSamplesTheLine : Obligations.AcquisitionSamplesTheLine := by
  intro s bits rest hs ho hd hdev hlen
  obtain ⟨read, hread, hlisted, hrun⟩ := iterate_seqStep_acquired hs ho hd
  rw [hdev, ← hlen, List.take_left] at hlisted
  obtain rfl := hlisted.eq_of_length (hlen.trans hread.symm)
  rw [hrun]
  simp [acquired, hdev]

/-- Settles O30: where none is listed every level that is read is free. -/
theorem acquisitionSamplesFreeLevels : Obligations.AcquisitionSamplesFreeLevels := by
  intro s hs ho hd hdev
  obtain ⟨bits, hlen, -, hrun⟩ := iterate_seqStep_acquired hs ho hd
  refine ⟨bits, hlen, ?_⟩
  rw [hrun]
  simp [acquired, hdev, hlen]

end Sys2Proof.Proofs
end

section
/-! PROOFS. The clock pattern of an acquisition does not depend on what is read (40 R79). -/

namespace Sys2Proof.Proofs

open Sys2Proof.Machine Sys2Proof.Safety

theorem clockWrites_append (t u : List LineEvent) : clockWrites (t ++ u) = clockWrites t ++ clockWrites u :=
  List.filterMap_append

theorem dataReads_append (t u : List LineEvent) : dataReads (t ++ u) = dataReads t ++ dataReads u :=
  List.filterMap_append

/-- Every pulse writes `ACTIVE` and `IDLE`. -/
theorem clockWrites_pulses (active idle : Level) (bits : List Level) :
    clockWrites (pulses active idle bits) = (List.replicate bits.length [active, idle]).flatten := by
  induction bits with
  | nil => rfl
  | cons b bs ih =>
    rw [List.length_cons, List.replicate_succ, List.flatten_cons, ← ih]
    rfl

/-- Every pulse reads its level. -/
theorem dataReads_pulses (active idle : Level) (bits : List Level) : dataReads (pulses active idle bits) = bits := by
  induction bits with
  | nil => rfl
  | cons b bs ih => exact congrArg (b :: ·) ih

theorem clockWrites_acqTrace (active idle : Level) (bits : List Level) :
    clockWrites (acqTrace active idle bits) =
      idle :: ((List.replicate bits.length [active, idle]).flatten ++ [active]) := by
  rw [← clockWrites_pulses, acqTrace]
  exact congrArg (idle :: ·) (clockWrites_append _ _)

theorem dataReads_acqTrace (active idle : Level) (bits : List Level) : dataReads (acqTrace active idle bits) = bits :=
  calc dataReads (acqTrace active idle bits)
    _ = dataReads (pulses active idle bits) ++ [] := dataReads_append _ _
    _ = bits := by rw [List.append_nil, dataReads_pulses]

/-- Settles O31: both runs end as O29 says, and the clock writes of their traces depend on the number of levels only. -/
theorem clockPatternIgnoresData : Obligations.ClockPatternIgnoresData := by
  intro s bits bits' rest rest' hs ho hd hlen hlen'
  have hrun := acquisitionSamplesTheLine { s with device := bits ++ rest } bits rest hs ho hd rfl hlen
  have hrun' := acquisitionSamplesTheLine { s with device := bits' ++ rest' } bits' rest' hs ho hd rfl hlen'
  have hwrites : ∀ read : List Level, read.length = s.n → clockWrites (s.trace ++ acqTrace s.active s.idle read) =
      clockWrites s.trace ++ s.idle :: ((List.replicate s.n [s.active, s.idle]).flatten ++ [s.active]) := by
    intro read hread
    rw [clockWrites_append, clockWrites_acqTrace, hread]
  have hreads : ∀ read : List Level, dataReads (s.trace ++ acqTrace s.active s.idle read) = dataReads s.trace ++ read := by
    intro read
    rw [dataReads_append, dataReads_acqTrace]
  refine ⟨_, _, hrun, hrun', ?same, hwrites bits hlen, ?count, hreads bits, hreads bits'⟩
  case same => exact (hwrites bits hlen).trans (hwrites bits' hlen').symm
  case count =>
    refine (congrArg List.length (hwrites bits hlen)).trans ?_
    simp only [List.length_append, List.length_cons, List.length_nil, List.length_flatten, List.map_replicate,
      List.sum_replicate, smul_eq_mul]
    omega

end Sys2Proof.Proofs
end

section
/-! PROOFS. Each position of the engine's program (41_hw_assisted_acquisition.md R83 to R89). -/

namespace Sys2Proof.Proofs

open Sys2Proof.Machine

variable {s : State}

/-- A capture where no level is listed takes some level and advances the count of draws (R86, 20_memory.md R44). -/
theorem engineStep_of_capt_free (h : EngineHasLines s) (he : s.eSeq = .capt) (hi : s.eBit < s.n)
    (hd : s.device = []) : ∃ b, engineStep s = .next { s with
      eSeq := .fall, eAcc := writeBit s.eAcc s.eBit b, draws := s.draws + 1, trace := s.trace ++ [.sdo b] } := by
  rw [engineStep_of_capt h.live he hi h.data, drawLevel_of_nil hd]
  exact ⟨_, rfl⟩

/-- The loop's end, both ways at once: the index advances while a bit is left, and stays after the last (log entry 10). -/
theorem engineNextBit_eq (s : State) : engineNextBit s = { s with
    eBit := if s.eBit + 1 < s.n then s.eBit + 1 else s.eBit, eSeq := if s.eBit + 1 < s.n then .rise else .emit } := by
  by_cases hmore : s.eBit + 1 < s.n
  · rw [engineNextBit_of_lt hmore, if_pos hmore, if_pos hmore]
    rfl
  · rw [engineNextBit_of_last hmore, if_neg hmore, if_neg hmore]
    rfl

/-- Settles O58: each position's rule, with the read's level listed or free and written to one bit. -/
theorem engineRows : Obligations.EngineRows := by
  intro s hl ho hd
  have hlines : EngineHasLines s := ⟨hl, ho, hd⟩
  refine ⟨?hold, ?rise, ?captListed, ?captFree, ?oneBit, ?fall, ?settle⟩
  case hold => exact fun he => engineStep_of_hold hl he ho
  case rise => exact fun he hi => engineStep_of_rise hl he hi ho
  case captListed => exact fun he hi b rest hdev => engineStep_of_capt_listed hlines he hi hdev
  case captFree => exact fun he hi hdev => engineStep_of_capt_free hlines he hi hdev
  case oneBit => exact fun j b hi _ => getLsbD_writeBit _ _ _ _ (hi.trans_le (n_le_sixteen s))
  case fall =>
    intro he hi
    rw [engineStep_of_fall hl he hi ho, engineNextBit_eq]
    rfl
  case settle => exact fun he => engineStep_of_settle hl he ho

end Sys2Proof.Proofs
end

section
/-! PROOFS. A round of the engine that finds room in the queue (41_hw_assisted_acquisition.md R83, R88), its levels listed or free. -/

namespace Sys2Proof.Proofs

open Sys2Proof.Machine Sys2Proof.Safety

variable {s : State}

/-- Settles O41: the round reaches `EMIT` with its word, which the queue takes, and settles. -/
theorem engineRoundQueuesOneWord : Obligations.EngineRoundQueuesOneWord := by
  intro s bits rest hl he ho hi hroom hd hlen
  have hemit := iterate_engineStep_atEmit ⟨hl, ho, hi⟩ he hlen hd
  have hpush := engineStep_of_emit_room (s := atEmit bits rest s) hl rfl hroom
  have hsettle := engineStep_of_settle
    (s := gotoEngine .settle (fifoPush (sampleWord bits) (atEmit bits rest s))) hl rfl ho
  rw [iterate_add_of_next 2 hemit, iterate_succ_of_next 1 hpush]
  refine (iterate_succ_of_next 0 hsettle).trans ?_
  simp [iterate, atEmit, gotoEngine, fifoPush, driveSck, engineTrace, he]

/-- Settles O42: an acquisition and a round both end with the sample of the levels they read (R96). -/
theorem backendsAreBitCompatible : Obligations.BackendsAreBitCompatible := by
  intro s e bits rest rest' hs hso hsi hsd hlen hl he heo hei hroom hed hn
  have hacq := acquisitionSamplesTheLine s bits rest hs hso hsi hsd hlen
  have hround := engineRoundQueuesOneWord e bits rest' hl he heo hei hroom hed (hlen.trans hn.symm)
  refine ⟨_, _, sampleWord bits, hacq, hround, rfl, rfl, fun i hi => ?_⟩
  exact getLsbD_sampleWord bits i (hi.trans_le (n_le_sixteen s))

/-! ### Free levels are the levels of some list (20_memory.md R44) -/

/-- `s` with the levels `bits` listed and already counted as drawn. -/
def listing (bits : List Level) (s : State) : State :=
  { s with device := bits, draws := s.draws + bits.length }

/-- `k` + `l` moves are `k` moves, then `l`. -/
theorem iterate_add (f : State → Result) (k l : Nat) (s : State) :
    iterate f (k + l) s = andThen (iterate f k s) (iterate f l) := by
  induction k generalizing s with
  | zero => rw [Nat.zero_add]; rfl
  | succ k ih =>
    rw [Nat.succ_add]
    cases hf : f s <;> simp [iterate, hf, ih]

/-- Runs that agree after `k` moves agree after more. -/
theorem iterate_add_congr {f : State → Result} {k : Nat} {s t : State} (l : Nat) (h : iterate f k s = iterate f k t) :
    iterate f (k + l) s = iterate f (k + l) t := by
  rw [iterate_add, iterate_add, h]

/-- A capture of a free level is the capture of that level listed. -/
theorem engineStep_of_capt_listing (h : EngineHasLines s) (he : s.eSeq = .capt) (hi : s.eBit < s.n)
    (hd : s.device = []) : ∃ b, engineStep s = engineStep (listing [b] s) := by
  obtain ⟨b, hfree⟩ := engineStep_of_capt_free h he hi hd
  refine ⟨b, ?_⟩
  rw [hfree, engineStep_of_capt_listed (s := listing [b] s) { h with } he hi rfl]
  simp [listing, hd]

/-- A pulse that reads a free level is the pulse with that level listed. -/
theorem iterate_engineStep_pulse_free (h : EngineHasLines s) (he : s.eSeq = .rise) (hi : s.eBit < s.n)
    (hd : s.device = []) : ∃ b, iterate engineStep 3 s = iterate engineStep 3 (listing [b] s) := by
  obtain ⟨b, hcapt⟩ := engineStep_of_capt_listing (s := gotoEngine .capt (driveSck s.active s)) { h with } rfl hi hd
  have hrise := engineStep_of_rise h.live he hi h.clock
  have hrise' := engineStep_of_rise (s := listing [b] s) h.live he hi h.clock
  refine ⟨b, ?_⟩
  rw [iterate_succ_of_next 2 hrise, iterate_succ_of_next 2 hrise']
  exact congrArg (andThen · (iterate engineStep 1)) hcapt

/-- `s` at the `RISE` that follows a pulse of the free level `b`. -/
def afterFreePulse (b : Level) (s : State) : State :=
  gotoEngine .rise { afterPulses [b] [] (listing [b] s) with eBit := s.eBit + 1 }

/-- A pulse before the last takes the first listed level and leaves the others listed. -/
theorem iterate_engineStep_pulse_listing (b : Level) (bs : List Level) (h : EngineHasLines s) (he : s.eSeq = .rise)
    (hmore : s.eBit + 1 < s.n) :
    iterate engineStep 3 (listing (b :: bs) s) = .next (listing bs (afterFreePulse b s)) := by
  have hpulse := iterate_engineStep_pulse (s := listing (b :: bs) s) { h with } he (Nat.lt_of_succ_lt hmore) rfl
  refine (hpulse.trans (congrArg Host.Outcome.next (engineNextBit_of_lt ?more))).trans ?_
  case more => exact hmore
  have hdraws : s.draws + (bs.length + 1) = s.draws + 1 + bs.length := by omega
  simp [afterFreePulse, listing, afterPulses, gotoEngine, hdraws, State.active, State.idle]

/-- The bit loop with free levels is the bit loop with some levels listed, one a pulse. -/
theorem iterate_engineStep_pulses_free (k : Nat) (h : EngineHasLines s) (he : s.eSeq = .rise)
    (hlen : s.eBit + (k + 1) = s.n) (hd : s.device = []) :
    ∃ bits, bits.length = k + 1 ∧
      iterate engineStep (3 * (k + 1)) s = iterate engineStep (3 * (k + 1)) (listing bits s) := by
  induction k generalizing s with
  | zero =>
    obtain ⟨b, hpulse⟩ := iterate_engineStep_pulse_free h he (by omega) hd
    exact ⟨[b], rfl, hpulse⟩
  | succ k ih =>
    obtain ⟨b, hpulse⟩ := iterate_engineStep_pulse_free h he (by omega) hd
    have hlisted := fun bs => iterate_engineStep_pulse_listing b bs h he (by omega)
    obtain ⟨bits, hbits, hrest⟩ :=
      ih (s := afterFreePulse b s) { h with } rfl ((Nat.succ_add_eq_add_succ _ _).trans hlen) rfl
    refine ⟨b :: bits, congrArg Nat.succ hbits, ?_⟩
    rw [Nat.mul_succ 3 (k + 1), Nat.add_comm, iterate_add_of_next _ (hpulse.trans (hlisted [])),
      iterate_add_of_next _ (hlisted bits)]
    exact hrest

/-- A round up to its word: with free levels it is the round with some `N` levels listed. -/
theorem iterate_engineStep_round_free (h : EngineHasLines s) (he : s.eSeq = .hold) (hd : s.device = []) :
    ∃ bits, bits.length = s.n ∧
      iterate engineStep (3 * s.n + 1) s = iterate engineStep (3 * s.n + 1) (listing bits s) := by
  obtain ⟨k, hk⟩ := Nat.exists_eq_succ_of_ne_zero (n_pos s).ne'
  obtain ⟨bits, hlen, hpulses⟩ := iterate_engineStep_pulses_free k
    (s := gotoEngine .rise { driveSck s.idle s with eAcc := 0, eBit := 0 }) { h with } rfl
    ((Nat.zero_add _).trans hk.symm) hd
  have hhold' := engineStep_of_hold (s := listing bits s) h.live he h.clock
  refine ⟨bits, hlen.trans hk.symm, ?_⟩
  rw [iterate_succ_of_next _ (engineStep_of_hold h.live he h.clock), iterate_succ_of_next _ hhold', hk]
  exact hpulses

/-- Settles O59: with the free levels listed the round is one of O41's. -/
theorem engineRoundSamplesFreeLevels : Obligations.EngineRoundSamplesFreeLevels := by
  intro s hl he ho hi hroom hd
  obtain ⟨bits, hlen, hfree⟩ := iterate_engineStep_round_free ⟨hl, ho, hi⟩ he hd
  have hround := engineRoundQueuesOneWord (listing bits s) bits [] hl he ho hi hroom (List.append_nil bits).symm hlen
  refine ⟨bits, hlen, (iterate_add_congr 2 hfree).trans (hround.trans ?_)⟩
  simp [listing, hlen, hd, State.active, State.idle, State.n]

end Sys2Proof.Proofs
end

section
/-! PROOFS. `POLL` on `HWASSIST` (41_hw_assisted_acquisition.md R91 to R94). -/

namespace Sys2Proof.Proofs

open Sys2Proof.Machine

variable {s : State}

/-- Settles O26: the oldest word goes to `CUR` and the scan begins. -/
theorem pollTakesOldestQueuedWord : Obligations.PollTakesOldestQueuedWord := by
  intro s w rest hs hf hr hb hq
  exact execPoll_of_pending hs hf hr hb hq

theorem portOpen_of_ready (hs : s.seq = .ready) : s.portOpen = true := by
  rw [State.portOpen, hs]
  rfl

theorem waiting_of_ready (hs : s.seq = .ready) : s.waiting = false := by
  rw [State.waiting, hs]
  rfl

/-- `POLL` that is accepted on `HWASSIST` is the acquisition from the queue (44_poll.md R114). -/
theorem execPoll_of_hwassist (hs : s.seq = .ready) (hf : s.failed = false) (hr : s.released = false)
    (hb : s.backend = .hwassist) : exec .poll s = acquireQueued s := by
  simp [exec, execPoll, portOpen_of_ready hs, hf, waiting_of_ready hs, hr, hb]

/-- Settles O27: the response is the whole effect. -/
theorem pollOfEmptyQueueAnswersFalse : Obligations.PollOfEmptyQueueAnswersFalse := by
  intro s hs hf hr hb hq
  rw [execPoll_of_hwassist hs hf hr hb, acquireQueued_of_empty hq, respond_of_open _ _ (portOpen_of_ready hs)]
  rfl

end Sys2Proof.Proofs
end

section
/-! PROOFS. The acknowledge of an event (42_edge_dispatch.md R103). -/

namespace Sys2Proof.Proofs

open Sys2Proof.Machine

variable {s : State} {i : Nat} {rest : List HostAct}

theorem portOpen_of_evwait (hs : s.seq = .evwait i) : s.portOpen = true := by
  rw [State.portOpen, hs]
  rfl

theorem hostTurn_of_ack (hh : s.host = .ack :: rest) (hs : s.seq = .evwait i) :
    hostTurn s = .next (acknowledge i { s with host := rest }) := by
  simp [hostTurn, hh, hostAck, hs]

/-- With the engine unable to move the host is the only agent that can answer the event. -/
theorem enabledAgents_of_ack (hh : s.host = .ack :: rest) (hs : s.seq = .evwait i) (he : engineEnabled s = false) :
    enabledAgents s = [.host] := by
  have ho := portOpen_of_evwait hs
  simp [enabledAgents, hostEnabled, hh, ho, seqEnabled_of_open ho, he]

/-- Settles O10: the host is the mover on both schedules, and its move is the acknowledge. -/
theorem acknowledgeResumesScan : Obligations.AcknowledgeResumesScan := by
  intro s i rest ts hh hs
  constructor
  · intro ht
    exact (step_of_turns_cons ht).trans (hostTurn_of_ack hh hs)
  · intro ht he
    exact (step_of_one_agent ht (enabledAgents_of_ack hh hs he)).trans (hostTurn_of_ack hh hs)

end Sys2Proof.Proofs
end

section
/-! PROOFS. The classes of a bit (42_edge_dispatch.md R98, R100, R104) and the rows of the scan (46_operation_classes.md R168). -/

namespace Sys2Proof.Proofs

open Sys2Proof.Machine

variable {s : State} {prev cur : Word} {i : Nat} {pressSet releaseSet : Bool} {k : EvKind}

/-! ### The class of a bit, and its event -/

theorem edge_eq_none_iff : edge prev cur i = none ↔ cur.getLsbD i = prev.getLsbD i := by
  unfold edge
  cases cur.getLsbD i <;> cases prev.getLsbD i <;> decide

theorem edge_eq_press_iff : edge prev cur i = some .press ↔ cur.getLsbD i = true ∧ prev.getLsbD i = false := by
  unfold edge
  cases cur.getLsbD i <;> cases prev.getLsbD i <;> decide

theorem edge_eq_release_iff : edge prev cur i = some .release ↔ cur.getLsbD i = false ∧ prev.getLsbD i = true := by
  unfold edge
  cases cur.getLsbD i <;> cases prev.getLsbD i <;> decide

theorem edgeEvent_eq_some_iff : edgeEvent pressSet releaseSet prev cur i = some k ↔
    edge prev cur i = some k ∧ handlerPresent pressSet releaseSet k = true :=
  Option.filter_eq_some_iff

theorem edgeEvent_of_edge_none (h : edge prev cur i = none) : edgeEvent pressSet releaseSet prev cur i = none := by
  rw [edgeEvent, h]
  rfl

/-- A change whose handler is absent is silent (R104). -/
theorem edgeEvent_of_absent (h : edge prev cur i = some k) (ha : handlerPresent pressSet releaseSet k = false) :
    edgeEvent pressSet releaseSet prev cur i = none := by
  simp [edgeEvent, h, Option.filter, ha]

/-! ### One step at each position of the scan -/

theorem seqStep_of_event (hs : s.seq = .scan i) (hi : i < s.n)
    (he : edgeEvent s.pressSet s.releaseSet s.prev s.cur i = some k) : seqStep s = .next (emitEvent k i s) :=
  (seqStep_of_scan hs).trans (scanStep_of_event hi he)

theorem seqStep_of_no_event (hs : s.seq = .scan i) (hi : i < s.n)
    (he : edgeEvent s.pressSet s.releaseSet s.prev s.cur i = none) : seqStep s = .next (gotoSeq (.scan (i + 1)) s) :=
  (seqStep_of_scan hs).trans (scanStep_of_no_event hi he)

/-- The end of a dispatch: `PREV <- CUR` and the response `OK`, 1 (R102, 44_poll.md R116). -/
theorem seqStep_of_scanEnd (hs : s.seq = .scan s.n) :
    seqStep s = .next { s with prev := s.cur, rspLog := s.rspLog ++ [0x00001#19], seq := .ready } := by
  rw [seqStep_of_scan hs, scanStep_of_end rfl]
  simp [scanEnd, respond, putResponse, gotoSeq, hs, seqAfterRespond, rspWord, Status.code]

/-- Settles O33: the class of the bit and the presence of its handler choose the row. -/
theorem scanRows : Obligations.ScanRows := by
  intro s i
  refine ⟨?_, ?_, ?_, ?_, ?_, seqStep_of_scanEnd⟩
  · intro hs hi hsame
    exact seqStep_of_no_event hs hi (edgeEvent_of_edge_none (edge_eq_none_iff.2 hsame))
  · intro hs hi hc hp habsent
    exact seqStep_of_no_event hs hi (edgeEvent_of_absent (edge_eq_press_iff.2 ⟨hc, hp⟩) habsent)
  · intro hs hi hc hp habsent
    exact seqStep_of_no_event hs hi (edgeEvent_of_absent (edge_eq_release_iff.2 ⟨hc, hp⟩) habsent)
  · intro hs hi hc hp hset
    exact seqStep_of_event (k := .press) hs hi (edgeEvent_eq_some_iff.2 ⟨edge_eq_press_iff.2 ⟨hc, hp⟩, hset⟩)
  · intro hs hi hc hp hset
    exact seqStep_of_event (k := .release) hs hi (edgeEvent_eq_some_iff.2 ⟨edge_eq_release_iff.2 ⟨hc, hp⟩, hset⟩)

/-! ### The presence bits are read when the bit is reached (R100) -/

theorem exec_setpress_of_open (en : Bool) (ho : s.portOpen = true) (hf : s.failed = false) :
    exec (.setpress en) s = .next { s with pressSet := en, rspLog := s.rspLog ++ [rspWord .ok 0] } := by
  have hrespond := respond_of_open (s := setPressFlag en s) .ok 0 ho
  rw [exec, execSetpress, command_of_open _ ho hf, hrespond]
  rfl

/-- Settles O38: the step at bit `i` + 1 reads the `PRESS_SET` that the handler wrote. -/
theorem presenceIsTestedAtTheBit : Obligations.PresenceIsTestedAtTheBit := by
  intro s i en hs hf hi hc hp
  have hpress := edge_eq_press_iff.2 ⟨hc, hp⟩
  have hset := exec_setpress_of_open en (portOpen_of_evwait hs) hf
  cases en
  case true =>
    exact ⟨_, _, hset, hs, seqStep_of_event (k := .press) rfl hi (edgeEvent_eq_some_iff.2 ⟨hpress, rfl⟩),
      fun _ => ⟨rfl, rfl⟩, fun h => absurd h (by decide)⟩
  case false =>
    exact ⟨_, _, hset, hs, seqStep_of_no_event rfl hi (edgeEvent_of_absent hpress rfl),
      fun h => absurd h (by decide), fun _ => ⟨rfl, rfl⟩⟩

end Sys2Proof.Proofs
end

section
/-! PROOFS. A whole `DISPATCH` (42_edge_dispatch.md R97, R99, R107). -/

namespace Sys2Proof.Proofs

open Sys2Proof.Machine Sys2Proof.Safety

variable {s : State}

/-! ### Equal samples -/

/-- From bit `i` on equal samples send the scan silently to its end. -/
theorem iterate_seqStep_equal (k : Nat) {i : Nat} (hs : s.seq = .scan i) (hn : i + k = s.n) (he : s.cur = s.prev) :
    iterate seqStep (k + 1) s = .next { s with seq := .ready, rspLog := s.rspLog ++ [0x00001#19] } := by
  induction k generalizing s i with
  | zero =>
    obtain rfl : i = s.n := hn
    rw [iterate_succ_of_next 0 (seqStep_of_scanEnd hs), he]
    rfl
  | succ k ih =>
    have hsame : edge s.prev s.cur i = none := edge_eq_none_iff.2 (by rw [he])
    rw [iterate_succ_of_next _ (seqStep_of_no_event hs (by omega) (edgeEvent_of_edge_none hsame))]
    exact ih (s := gotoSeq (.scan (i + 1)) s) rfl ((Nat.succ_add_eq_add_succ i k).trans hn) he

/-- Settles O37: the scan of all `N` bits of equal samples. -/
theorem equalSamplesDispatchNothing : Obligations.EqualSamplesDispatchNothing := by
  intro s hs he
  exact iterate_seqStep_equal s.n hs (Nat.zero_add _) he

/-! ### Any two samples, with a host whose handlers only return -/

/-- The event words of the bits `i` to `i` + `k` - 1. -/
def eventsFrom (pressSet releaseSet : Bool) (prev cur : Word) (i k : Nat) : List EvWord :=
  (List.range' i k).filterMap fun j => (edgeEvent pressSet releaseSet prev cur j).map (evWord · j)

theorem eventsFrom_zero (pressSet releaseSet : Bool) (prev cur : Word) (n : Nat) :
    eventsFrom pressSet releaseSet prev cur 0 n = dispatchEvents pressSet releaseSet prev cur n := by
  rw [eventsFrom, dispatchEvents, List.range_eq_range']

theorem eventsFrom_of_no_event {pressSet releaseSet : Bool} {prev cur : Word} {i : Nat} (k : Nat)
    (h : edgeEvent pressSet releaseSet prev cur i = none) :
    eventsFrom pressSet releaseSet prev cur i (k + 1) = eventsFrom pressSet releaseSet prev cur (i + 1) k := by
  simp [eventsFrom, List.range'_succ, h]

theorem eventsFrom_of_event {pressSet releaseSet : Bool} {prev cur : Word} {i : Nat} {kind : EvKind} (k : Nat)
    (h : edgeEvent pressSet releaseSet prev cur i = some kind) :
    eventsFrom pressSet releaseSet prev cur i (k + 1) =
      evWord kind i :: eventsFrom pressSet releaseSet prev cur (i + 1) k := by
  simp [eventsFrom, List.range'_succ, h]

theorem length_dispatchEvents_le (pressSet releaseSet : Bool) (prev cur : Word) (n : Nat) :
    (dispatchEvents pressSet releaseSet prev cur n).length ≤ n :=
  (List.length_filterMap_le _ _).trans_eq List.length_range

/-- `s` after a dispatch that emitted `es`, each of which was acknowledged. -/
def dispatched (es : List EvWord) (s : State) : State :=
  { s with prev := s.cur, seq := .ready, rspLog := s.rspLog ++ [0x00001#19], evLog := s.evLog ++ es }

theorem promptStep_of_ready (hs : s.seq = .ready) : promptStep s = .next s := by
  unfold promptStep
  rw [hs]

theorem promptStep_of_scan {i : Nat} (hs : s.seq = .scan i) : promptStep s = seqStep s := by
  unfold promptStep
  rw [hs]

theorem promptStep_of_evwait {i : Nat} (hs : s.seq = .evwait i) : promptStep s = .next (acknowledge i s) := by
  unfold promptStep
  rw [hs]

/-- From bit `i` on a dispatch takes one move for each bit, one for each event's acknowledge, and one for its end. -/
theorem iterate_promptStep_scan (k : Nat) {i : Nat} (hs : s.seq = .scan i) (hn : i + k = s.n) (hport : s.evPort = none) :
    iterate promptStep ((eventsFrom s.pressSet s.releaseSet s.prev s.cur i k).length + k + 1) s =
      .next (dispatched (eventsFrom s.pressSet s.releaseSet s.prev s.cur i k) s) := by
  induction k generalizing s i with
  | zero =>
    obtain rfl : i = s.n := hn
    refine (iterate_succ_of_next 0 ((promptStep_of_scan hs).trans (seqStep_of_scanEnd hs))).trans ?_
    simp [iterate, dispatched, eventsFrom]
  | succ k ih =>
    have hi : i < s.n := by omega
    have hn' : i + 1 + k = s.n := (Nat.succ_add_eq_add_succ i k).trans hn
    cases he : edgeEvent s.pressSet s.releaseSet s.prev s.cur i with
    | none =>
      have hgo := (promptStep_of_scan hs).trans (seqStep_of_no_event hs hi he)
      rw [eventsFrom_of_no_event k he, iterate_succ_of_next _ hgo]
      exact ih (s := gotoSeq (.scan (i + 1)) s) rfl hn' hport
    | some kind =>
      have hemit := (promptStep_of_scan hs).trans (seqStep_of_event hs hi he)
      have hack := promptStep_of_evwait (s := emitEvent kind i s) rfl
      rw [eventsFrom_of_event k he, List.length_cons, Nat.add_right_comm _ 1, iterate_succ_of_next _ hemit,
        iterate_succ_of_next _ hack]
      refine (ih (s := acknowledge i (emitEvent kind i s)) rfl hn' rfl).trans ?_
      simp [dispatched, acknowledge, emitEvent, hport]

/-- Settles O34: the dispatch takes `N` + 1 moves and one for each event, of which there are at most `N`; in `READY`
the moves left over change nothing. -/
theorem dispatchEmitsEveryChange : Obligations.DispatchEmitsEveryChange := by
  intro s hs hport
  have hrun := iterate_promptStep_scan s.n hs (Nat.zero_add _) hport
  rw [eventsFrom_zero] at hrun
  obtain ⟨spare, hspare⟩ := Nat.exists_eq_add_of_le (length_dispatchEvents_le s.pressSet s.releaseSet s.prev s.cur s.n)
  rw [show 2 * s.n + 1 = (dispatchEvents s.pressSet s.releaseSet s.prev s.cur s.n).length + s.n + 1 + spare by omega,
    iterate_add_of_next spare hrun, iterate_of_fixed (promptStep_of_ready rfl)]
  rfl

end Sys2Proof.Proofs
end

section
/-! PROOFS. Which events a pair of samples gives (42_edge_dispatch.md R101, R105). -/

namespace Sys2Proof.Proofs

open Sys2Proof.Machine Sys2Proof.Safety

variable {pressSet releaseSet : Bool} {prev cur : Word} {n i : Nat}

theorem channels_le_sixteen (m : KeyMode) : m.channels ≤ 16 := by
  cases m <;> decide

/-! ### The fields of an event word (30_encoding.md R63) -/

theorem evIndex_evWord (k : EvKind) (hi : i < 16) : evIndex (evWord k i) = i := by
  unfold evIndex evWord
  rw [BitVec.extractLsb'_append_eq_right, BitVec.toNat_ofNat, Nat.mod_eq_of_lt hi]

theorem msb_evWord (k : EvKind) (i : Nat) : (evWord k i).msb = decide (k = .press) := by
  cases k <;> exact BitVec.msb_append

theorem evWord_inj {k k' : EvKind} {j : Nat} (hi : i < 16) (hj : j < 16) (h : evWord k i = evWord k' j) :
    k = k' ∧ i = j := by
  constructor
  · have hkind := congrArg BitVec.msb h
    rw [msb_evWord, msb_evWord] at hkind
    revert hkind
    cases k <;> cases k' <;> decide
  · rw [← evIndex_evWord k hi, h, evIndex_evWord k' hj]

/-! ### The bits that report -/

/-- The indices of a dispatch's events are the bits that report an event, in ascending order. -/
theorem map_evIndex_dispatchEvents (hn : n ≤ 16) :
    (dispatchEvents pressSet releaseSet prev cur n).map evIndex =
      (List.range n).filter fun i => (edgeEvent pressSet releaseSet prev cur i).isSome := by
  rw [dispatchEvents, List.map_filterMap, ← List.filterMap_eq_filter]
  refine List.filterMap_congr fun i hi => ?_
  have hi' : i < 16 := (List.mem_range.1 hi).trans_le hn
  cases he : edgeEvent pressSet releaseSet prev cur i <;> simp [Option.guard, he, evIndex_evWord, hi']

/-- Settles O35: the bits are visited in ascending order, each at most once. -/
theorem dispatchIndicesIncrease : Obligations.DispatchIndicesIncrease := by
  intro pressSet releaseSet prev cur m
  have hindices := map_evIndex_dispatchEvents (pressSet := pressSet) (releaseSet := releaseSet) (prev := prev)
    (cur := cur) (channels_le_sixteen m)
  constructor
  · rw [hindices]
    exact List.pairwise_lt_range.filter _
  · intro e he
    have hmem := List.mem_map_of_mem (f := evIndex) he
    rw [hindices] at hmem
    exact List.mem_range.1 (List.mem_of_mem_filter hmem)

/-- A word of bit `i` is among the events exactly when bit `i` gives rise to its kind. -/
theorem evWord_mem_dispatchEvents {k : EvKind} (hn : n ≤ 16) (hi : i < n) :
    evWord k i ∈ dispatchEvents pressSet releaseSet prev cur n ↔ edgeEvent pressSet releaseSet prev cur i = some k := by
  simp only [dispatchEvents, List.mem_filterMap, List.mem_range, Option.map_eq_some_iff]
  constructor
  · rintro ⟨j, hj, k', he, hword⟩
    obtain ⟨rfl, rfl⟩ := evWord_inj (hj.trans_le hn) (hi.trans_le hn) hword
    exact he
  · intro he
    exact ⟨i, hi, k, he, rfl⟩

theorem edgeEvent_eq_press_iff (hi : i < 16) : edgeEvent pressSet releaseSet prev cur i = some .press ↔
    pressSet = true ∧ (cur &&& ~~~prev).getLsbD i = true := by
  rw [edgeEvent_eq_some_iff, edge_eq_press_iff]
  simp [handlerPresent, hi, and_comm]

theorem edgeEvent_eq_release_iff (hi : i < 16) : edgeEvent pressSet releaseSet prev cur i = some .release ↔
    releaseSet = true ∧ (~~~cur &&& prev).getLsbD i = true := by
  rw [edgeEvent_eq_some_iff, edge_eq_release_iff]
  simp [handlerPresent, hi, and_comm]

/-- With both handlers present exactly the changed bits report. -/
theorem isSome_edgeEvent_of_both (prev cur : Word) (i : Nat) :
    (edgeEvent true true prev cur i).isSome = (cur ^^^ prev).getLsbD i := by
  rw [edgeEvent, edge, BitVec.getLsbD_xor]
  cases cur.getLsbD i <;> cases prev.getLsbD i <;> rfl

theorem length_dispatchEvents_of_both (prev cur : Word) (hn : n ≤ 16) :
    (dispatchEvents true true prev cur n).length = ((List.range n).filter fun i => (cur ^^^ prev).getLsbD i).length := by
  rw [← List.length_map evIndex, map_evIndex_dispatchEvents hn]
  simp only [isSome_edgeEvent_of_both]

/-- Settles O36: an event is among those of the dispatch exactly when its bit is of its class and its handler is present. -/
theorem dispatchEventsAreTheDifferences : Obligations.DispatchEventsAreTheDifferences := by
  intro pressSet releaseSet prev cur m
  have hn := channels_le_sixteen m
  refine ⟨fun i hi => ⟨?_, ?_⟩, length_dispatchEvents_of_both prev cur hn⟩
  · exact (evWord_mem_dispatchEvents (k := .press) hn hi).trans (edgeEvent_eq_press_iff (hi.trans_le hn))
  · exact (evWord_mem_dispatchEvents (k := .release) hn hi).trans (edgeEvent_eq_release_iff (hi.trans_le hn))

end Sys2Proof.Proofs
end

section
/-! PROOFS. Who writes `PREV` (10_state.md R31 (c), 42_edge_dispatch.md R102). -/

namespace Sys2Proof.Proofs

open Sys2Proof.Machine Sys2Proof.Safety

variable {s t : State}

theorem drawLevel_prev (s : State) : (drawLevel s).2.prev = s.prev := by
  rw [drawLevel_frame]

theorem acqStep_keeps_prev {i : Nat} {ph : Phase} (h : acqStep i ph s = .next t) : t.prev = s.prev := by
  rcases acqStep_eq_next h with ⟨-, -, -, rfl⟩ | ⟨-, -, -, rfl⟩ | ⟨-, -, -, rfl⟩ | ⟨-, -, -, rfl⟩ | ⟨-, -, -, rfl⟩
  · rfl
  · rfl
  · exact drawLevel_prev s
  · rfl
  · rfl

/-- The sequencer keeps `PREV`, unless it ends a dispatch. -/
theorem seqStep_keeps_prev_or_ends (h : seqStep s = .next t) :
    t.prev = s.prev ∨ (s.seq = .scan s.n ∧ t.prev = s.cur ∧ t.seq = .ready) := by
  rcases seqStep_eq_next h with ⟨-, rfl⟩ | ⟨i, ph, -, hacq⟩ | ⟨i, hs, hscan⟩
  · exact .inl rfl
  · exact .inl (acqStep_keeps_prev hacq)
  · rcases scanStep_eq_next hscan with ⟨k, -, -, rfl⟩ | ⟨-, -, rfl⟩ | ⟨rfl, rfl⟩
    · exact .inl rfl
    · exact .inl rfl
    · exact .inr ⟨hs, rfl, congrArg seqAfterRespond hs⟩

theorem engineStep_keeps_prev (h : engineStep s = .next t) : t.prev = s.prev := by
  rw [engineStep_frame h]
  rfl

theorem runWord_keeps_prev {w : CmdWord} (h : runWord w s = .next t) : t.prev = s.prev := by
  obtain ⟨⟨-, -, -, -, -, -, hprev, -⟩, -⟩ := commandFrame w s t h
  exact hprev

/-- The host keeps `PREV`, unless it takes a reset. -/
theorem hostTurn_keeps_prev_or_resets (h : hostTurn s = .next t) :
    t.prev = s.prev ∨ ∃ st rest, s.host = .reset st :: rest ∧ t.host = rest ∧ t.prev = 0 := by
  rcases hostTurn_eq_next h with rfl | ⟨w, rest, -, -, hword⟩ | ⟨i, rest, -, -, rfl⟩ | ⟨st, rest, hs, rfl⟩
  · exact .inl rfl
  · exact .inl (runWord_keeps_prev (s := { s with host := rest }) hword)
  · exact .inl rfl
  · exact .inr ⟨st, rest, hs, rfl, rfl⟩

theorem agentTurn_keeps_prev_or_writes {a : Agent} (h : agentTurn a s = .next t) :
    t.prev = s.prev ∨ (s.seq = .scan s.n ∧ t.prev = s.cur ∧ t.seq = .ready) ∨
      ∃ st rest, s.host = .reset st :: rest ∧ t.host = rest ∧ t.prev = 0 := by
  cases a with
  | host => exact (hostTurn_keeps_prev_or_resets h).imp_right .inr
  | sequencer => exact (seqStep_keeps_prev_or_ends h).imp_right .inl
  | engine => exact .inl (engineStep_keeps_prev h)

/-- Settles O55: of all moves only the end of a dispatch and the host's reset write `PREV`. -/
theorem prevIsWrittenOnlyAtScanEnd : Obligations.PrevIsWrittenOnlyAtScanEnd := by
  constructor
  · intro s t h
    rcases step_cases s with hwait | ⟨a, ts, d, hmove⟩
    · cases hwait.symm.trans h
      exact .inl rfl
    · exact agentTurn_keeps_prev_or_writes (s := { s with turns := ts, draws := d }) (hmove.symm.trans h)
  · intro s hs
    exact ⟨_, seqStep_of_scanEnd hs, rfl, rfl, rfl, rfl⟩

end Sys2Proof.Proofs
end

section
/-! PROOFS. A command in a failed block (60_exceptions.md R131), and a word whose `arg` must be 0 (30_encoding.md R58). -/

namespace Sys2Proof.Proofs

open Sys2Proof.Machine

variable {s : State}

/-- `FAILED` is tested before anything a command does (R137). -/
theorem exec_of_failed (i : Instr) (ho : s.portOpen = true) (hf : s.failed = true) :
    exec i s = .next { s with rspLog := s.rspLog ++ [4#3 ++ s.errval] } := by
  obtain ⟨body, hbody⟩ := exec_is_command i s
  rw [hbody, command_of_failed body ho hf]
  rfl

theorem exists_reserved_of_arg_ne_zero {op : BitVec 4} {arg : BitVec 12}
    (hop : op = 1#4 ∨ op = 2#4 ∨ op = 4#4 ∨ op = 5#4) (harg : arg ≠ 0) :
    ∃ why, decode (commandWord op arg) = .reserved why := by
  rw [exists_reserved_iff, exists_command_iff, not_commandFields_iff, opField_commandWord, idxField_commandWord]
  exact .inr (.inr (.inl ⟨hop, harg⟩))

theorem runWord_of_arg_ne_zero {op : BitVec 4} {arg : BitVec 12} (hop : op = 1#4 ∨ op = 2#4 ∨ op = 4#4 ∨ op = 5#4)
    (harg : arg ≠ 0) (ho : s.portOpen = true) (hf : s.failed = false) :
    runWord (commandWord op arg) s = .next { s with rspLog := s.rspLog ++ [0x10000#19] } := by
  obtain ⟨why, hwhy⟩ := exists_reserved_of_arg_ne_zero hop harg
  simpa [hf] using runWord_of_reserved hwhy ho

end Sys2Proof.Proofs
end

section
/-! PROOFS. The accessors (43_channel_accessor.md R109 to R112). -/

namespace Sys2Proof.Proofs

open Sys2Proof.Machine Sys2Proof.Safety

variable {s : State}

/-! ### What each accessor answers -/

theorem exec_sample_of_open (ho : s.portOpen = true) (hf : s.failed = false) :
    exec .sample s = .next { s with rspLog := s.rspLog ++ [rspWord .ok s.cur] } := by
  rw [exec, execSample, command_of_open _ ho hf, respond_of_open _ _ ho]

theorem exec_channel_of_open (idx : Nat) (ho : s.portOpen = true) (hf : s.failed = false) :
    exec (.channel idx) s =
      .next { s with rspLog := s.rspLog ++ [rspWord .ok (bitData (s.cur.getLsbD (channelIndex idx s.n)))] } := by
  rw [exec, execChannel, command_of_open _ ho hf, respond_of_open _ _ ho]

theorem exec_count_of_open (ho : s.portOpen = true) (hf : s.failed = false) :
    exec .count s = .next { s with rspLog := s.rspLog ++ [rspWord .ok (BitVec.ofNat 16 s.n)] } := by
  rw [exec, execCount, command_of_open _ ho hf, respond_of_open _ _ ho]

/-! ### The channel count and the indices it wraps -/

theorem n_of_key8 (hm : s.mode = .key8) : s.n = 8 := congrArg KeyMode.channels hm

theorem n_of_key16 (hm : s.mode = .key16) : s.n = 16 := congrArg KeyMode.channels hm

theorem channelIndex_add_self (idx n : Nat) : channelIndex (n + idx) n = channelIndex idx n :=
  Nat.add_mod_left n idx

theorem channelIndex_of_lt {idx n : Nat} (h : idx < n) : channelIndex idx n = idx := Nat.mod_eq_of_lt h

theorem cur_le_of_key8 (hinv : Inv s) (hm : s.mode = .key8) : s.cur ≤ 0x00FF#16 := by
  have hnarrow := hinv.curNarrow
  rw [n_of_key8 hm, narrow, decide_eq_true_iff] at hnarrow
  exact Nat.le_of_lt_succ hnarrow

/-! ### A bit as a mask reads it -/

/-- A one-bit mask leaves 0 exactly where that bit is 0. -/
theorem and_shiftLeft_one_eq_zero_iff {w : Word} {i : Nat} (hi : i < 16) :
    w &&& (1#16 <<< i) = 0 ↔ w.getLsbD i = false := by
  have hmask : BitVec.twoPow 16 i ≠ 0#16 := fun h => by
    simpa [hi] using congrArg (BitVec.getLsbD · i) h
  rw [← BitVec.twoPow_eq, BitVec.and_twoPow]
  cases w.getLsbD i <;> simp [hmask]

theorem bitData_getLsbD {w : Word} {i : Nat} (hi : i < 16) :
    bitData (w.getLsbD i) = if w &&& (1#16 <<< i) = 0 then 0#16 else 1#16 := by
  simp only [and_shiftLeft_one_eq_zero_iff hi]
  cases w.getLsbD i <;> rfl

/-! ### The obligations -/

/-- Settles O11: the body answers `CUR`, which under the invariant has no bit at or above `N`. -/
theorem sampleAnswersCurrentSample : Obligations.SampleAnswersCurrentSample := by
  intro s ho
  refine ⟨exec_sample_of_open ho, exec_of_failed .sample ho, ?_, ?_, cur_le_of_key8⟩
  · exact runWord_of_command (decode_encode (i := .sample) rfl)
  · intro hf arg harg
    exact runWord_of_arg_ne_zero (op := 2#4) (by decide) harg ho hf

/-- Settles O12: the index is read whole from the word, and `N` is 2 ^ 3 or 2 ^ 4. -/
theorem channelAnswersBitModuloCount : Obligations.ChannelAnswersBitModuloCount := by
  intro idx s ho
  refine ⟨exec_of_failed (.channel idx) ho, ?_, fun hf => ⟨exec_channel_of_open idx ho hf, ?_, ?_, ?_⟩⟩
  · intro arg
    have hdecode := decode_of_channel (opField_commandWord 3#4 arg)
    rw [idxField_commandWord] at hdecode
    exact runWord_of_command hdecode
  · rw [exec_channel_of_open _ ho hf, exec_channel_of_open _ ho hf, channelIndex_add_self]
  · intro a hm
    rw [n_of_key8 hm]
    exact (BitVec.extractLsb'_toNat 0 3 a).symm
  · intro a hm
    rw [n_of_key16 hm]
    exact (BitVec.extractLsb'_toNat 0 4 a).symm

/-- Settles O13: the answer is `N`, which `MODE` fixes. -/
theorem countAnswersChannelCount : Obligations.CountAnswersChannelCount := by
  intro s ho
  refine ⟨exec_of_failed .count ho, ?_, ?_, fun hf => ⟨?_, ?_⟩⟩
  · exact runWord_of_command (decode_encode (i := .count) rfl)
  · intro hf arg harg
    exact runWord_of_arg_ne_zero (op := 4#4) (by decide) harg ho hf
  · intro hm
    rw [exec_count_of_open ho hf, n_of_key8 hm]
    rfl
  · intro hm
    rw [exec_count_of_open ho hf, n_of_key16 hm]
    rfl

/-- Settles O14: both read `CUR`, and an index below `N` does not wrap. -/
theorem accessorsAgree : Obligations.AccessorsAgree := by
  intro s ho hf
  refine ⟨s.cur, exec_sample_of_open ho hf, fun i hi => ?_⟩
  have hbit := bitData_getLsbD (w := s.cur) (hi.trans_le (n_le_sixteen s))
  rw [exec_channel_of_open i ho hf, channelIndex_of_lt hi, hbit]
  rfl

end Sys2Proof.Proofs
end

section
/-! PROOFS. One whole `POLL` (44_poll.md R114, R121), on a run of the machine and from the queue. -/

namespace Sys2Proof.Proofs

open Sys2Proof.Machine Sys2Proof.Safety

variable {s t : State} {i : Nat} {h : List HostAct}

/-! ### Runs of the machine -/

theorem run_succ_of_next {M : Host.Core} {s t : M.State} (k : Nat) (hstep : M.step s = .next t) :
    M.run (k + 1) s = M.run k t := by
  rw [Host.Core.run, hstep]

/-- A run is the iterated step, as long as every step answers next. -/
theorem core_run_of_iterate (k : Nat) (hrun : iterate step k s = .next t) : core.run k s = .next t := by
  induction k generalizing s with
  | zero => exact hrun
  | succ k ih =>
    obtain ⟨u, hu, hrest⟩ := andThen_eq_next.1 (show andThen (step s) (iterate step k) = .next t from hrun)
    exact (run_succ_of_next (M := core) k hu).trans (ih hrest)

/-! ### Moves on `BITBANG` with no turn listed and no reset next -/

/-- The schedule leaves the mover to `SEQ`: the sequencer where it has a step of its own, else the host. -/
structure SeqNamesMover (s : State) : Prop where
  bitbang : s.backend = .bitbang
  unscheduled : s.turns = []
  noReset : noReset s.host = true

theorem engineEnabled_of_bitbang (hb : s.backend = .bitbang) : engineEnabled s = false := by
  simp [engineEnabled, engineLive, hb, Backend.hasEngine]

/-- While the port is closed the host can do nothing but reset (40 R78, 44 R119). -/
theorem hostEnabled_of_closed (hr : noReset s.host = true) (hc : s.portOpen = false) : hostEnabled s = false := by
  unfold hostEnabled
  split
  next => rfl
  next => exact hc
  next => exact hc
  next hh => rw [hh] at hr; cases hr

theorem portOpen_of_moves (hm : s.seq.moves = true) : s.portOpen = false :=
  Bool.eq_false_of_not_eq_true fun ho => Bool.false_ne_true ((moves_eq_false_of_accepts ho).symm.trans hm)

/-- Where the sequencer has a step of its own it is the mover. -/
theorem step_of_moves (hq : SeqNamesMover s) (hm : s.seq.moves = true) : step s = seqStep s := by
  have hhost := hostEnabled_of_closed hq.noReset (portOpen_of_moves hm)
  have hagents : enabledAgents s = [.sequencer] := by
    simp [enabledAgents, hhost, show seqEnabled s = true from hm, engineEnabled_of_bitbang hq.bitbang]
  exact step_of_one_agent hq.unscheduled hagents

theorem step_of_scan (hq : SeqNamesMover s) (hs : s.seq = .scan i) : step s = seqStep s :=
  step_of_moves hq (by rw [hs]; rfl)

/-- An event that waits is acknowledged by the host's next step (42 R103). -/
theorem step_of_ack {rest : List HostAct} (hq : SeqNamesMover s) (hh : s.host = .ack :: rest) (hs : s.seq = .evwait i) :
    step s = .next (acknowledge i { s with host := rest }) :=
  (step_of_one_agent hq.unscheduled (enabledAgents_of_ack hh hs (engineEnabled_of_bitbang hq.bitbang))).trans
    (hostTurn_of_ack hh hs)

/-- The sequencer takes nothing of what the host and the schedule still hold. -/
theorem seqStep_keeps_host_turns (hstep : seqStep s = .next t) : t.host = s.host ∧ t.turns = s.turns := by
  rcases seqStep_eq_next hstep with ⟨-, rfl⟩ | ⟨i, ph, -, hacq⟩ | ⟨i, -, hscan⟩
  · exact ⟨rfl, rfl⟩
  · rcases acqStep_eq_next hacq with ⟨-, -, -, rfl⟩ | ⟨-, -, -, rfl⟩ | ⟨-, -, -, rfl⟩ | ⟨-, -, -, rfl⟩ | ⟨-, -, -, rfl⟩
    case inr.inr.inl => simp [drawLevel_takes]
    all_goals exact ⟨rfl, rfl⟩
  · rcases scanStep_eq_next hscan with ⟨k, -, -, rfl⟩ | ⟨-, -, rfl⟩ | ⟨-, rfl⟩ <;> exact ⟨rfl, rfl⟩

theorem seqStep_keeps_seqNamesMover (hq : SeqNamesMover s) (hstep : seqStep s = .next t) : SeqNamesMover t := by
  obtain ⟨hhost, hturns⟩ := seqStep_keeps_host_turns hstep
  exact ⟨(seqStep_keeps_config hstep).backend.trans hq.bitbang, hturns.trans hq.unscheduled, hhost ▸ hq.noReset⟩

theorem seqStep_of_not_moves (hm : s.seq.moves = false) : seqStep s = .next s := by
  unfold seqStep
  cases hs : s.seq with
  | ready | evwait => rfl
  | acq | scan => rw [hs] at hm; cases hm

/-- The sequencer's own run is a run of the machine where it ends at a position that has a step: a position without one is
never left by the sequencer, so none lies on the way. -/
theorem iterate_step_of_iterate_seqStep (k : Nat) (hq : SeqNamesMover s) (hrun : iterate seqStep k s = .next t)
    (ht : t.seq.moves = true) : iterate step k s = .next t := by
  induction k generalizing s with
  | zero => exact hrun
  | succ k ih =>
    have hm : s.seq.moves = true := by
      by_contra hstill
      have hfixed := iterate_of_fixed (seqStep_of_not_moves (Bool.eq_false_of_not_eq_true hstill)) (k + 1)
      obtain rfl := Host.Outcome.next.inj (hfixed.symm.trans hrun)
      exact hstill ht
    obtain ⟨u, hu, hrest⟩ := andThen_eq_next.1 (show andThen (seqStep s) (iterate seqStep k) = .next t from hrun)
    rw [iterate_succ_of_next k ((step_of_moves hq hm).trans hu)]
    exact ih (seqStep_keeps_seqNamesMover hq hu) hrest

/-- The acquisition of `N` listed levels. -/
theorem iterate_step_acquisition {bits rest : List Level} (hq : SeqNamesMover s) (hs : s.seq = .acq 0 .start)
    (ho : s.sckOe = true) (hd : s.sdoIn = true) (hdev : s.device = bits ++ rest) (hlen : bits.length = s.n) :
    iterate step (3 * s.n + 2) s = .next (acquired bits s) := by
  have hread := acquisitionSamplesTheLine s bits rest hs ho hd hdev hlen
  rw [iterate_step_of_iterate_seqStep _ hq hread rfl]
  simp [acquired, hdev]

/-! ### A dispatch on a run of the machine -/

/-- The host acknowledges `m` events before it goes on with `h`. -/
def acksThen (m : Nat) (h : List HostAct) : List HostAct := List.replicate m .ack ++ h

theorem acksThen_succ (m : Nat) (h : List HostAct) : acksThen (m + 1) h = .ack :: acksThen m h := rfl

theorem noReset_acksThen (m : Nat) (hh : noReset h = true) : noReset (acksThen m h) = true := by
  cases m with
  | zero => exact hh
  | succ m => rfl

/-- A bit with an event takes two steps of the machine: the emission, and the host's acknowledge (42 R103). -/
theorem iterate_step_event {kind : EvKind} {rest : List HostAct} (hq : SeqNamesMover s) (hs : s.seq = .scan i) (hi : i < s.n)
    (he : edgeEvent s.pressSet s.releaseSet s.prev s.cur i = some kind) (hhost : s.host = .ack :: rest) :
    iterate step 2 s = .next (acknowledge i { emitEvent kind i s with host := rest }) := by
  have hemit := seqStep_of_event hs hi he
  have hack := step_of_ack (seqStep_keeps_seqNamesMover hq hemit) hhost rfl
  rw [iterate_succ_of_next 1 ((step_of_scan hq hs).trans hemit), iterate_succ_of_next 0 hack]
  rfl

/-- From bit `i` on a dispatch takes one step of the machine for each bit, one for each event's acknowledge, and one for
its end. -/
theorem iterate_step_scan (k : Nat) (hq : SeqNamesMover s) (hs : s.seq = .scan i) (hn : i + k = s.n)
    (hport : s.evPort = none) (hh : noReset h = true)
    (hhost : s.host = acksThen (eventsFrom s.pressSet s.releaseSet s.prev s.cur i k).length h) :
    iterate step ((eventsFrom s.pressSet s.releaseSet s.prev s.cur i k).length + k + 1) s =
      .next { dispatched (eventsFrom s.pressSet s.releaseSet s.prev s.cur i k) s with host := h } := by
  induction k generalizing s i with
  | zero =>
    obtain rfl : i = s.n := hn
    refine (iterate_succ_of_next 0 ((step_of_scan hq hs).trans (seqStep_of_scanEnd hs))).trans ?_
    simp [iterate, dispatched, eventsFrom, hhost, acksThen]
  | succ k ih =>
    have hi : i < s.n := by omega
    have hn' : i + 1 + k = s.n := (Nat.succ_add_eq_add_succ i k).trans hn
    cases he : edgeEvent s.pressSet s.releaseSet s.prev s.cur i with
    | none =>
      have hgo := seqStep_of_no_event hs hi he
      rw [eventsFrom_of_no_event k he] at hhost ⊢
      rw [iterate_succ_of_next _ ((step_of_scan hq hs).trans hgo)]
      exact ih (s := gotoSeq (.scan (i + 1)) s) (seqStep_keeps_seqNamesMover hq hgo) rfl hn' hport hhost
    | some kind =>
      rw [eventsFrom_of_event k he, List.length_cons] at hhost ⊢
      rw [acksThen_succ] at hhost
      have hevent := iterate_step_event hq hs hi he hhost
      rw [show ∀ m, m + 1 + (k + 1) + 1 = 2 + (m + k + 1) by omega, iterate_add_of_next _ hevent]
      refine (ih (s := acknowledge i { emitEvent kind i s with host := acksThen _ h })
        ⟨hq.bitbang, hq.unscheduled, noReset_acksThen _ hh⟩ rfl hn' rfl rfl).trans ?_
      simp [dispatched, acknowledge, emitEvent, hport]

/-- The dispatch of all `N` bits. -/
theorem iterate_step_dispatch (hq : SeqNamesMover s) (hs : s.seq = .scan 0) (hport : s.evPort = none)
    (hh : noReset h = true)
    (hhost : s.host = acksThen (dispatchEvents s.pressSet s.releaseSet s.prev s.cur s.n).length h) :
    iterate step (s.n + 1 + (dispatchEvents s.pressSet s.releaseSet s.prev s.cur s.n).length) s =
      .next { dispatched (dispatchEvents s.pressSet s.releaseSet s.prev s.cur s.n) s with host := h } := by
  rw [Nat.add_comm, ← Nat.add_assoc]
  rw [← eventsFrom_zero] at hhost ⊢
  exact iterate_step_scan s.n hq hs (Nat.zero_add _) hport hh hhost

/-! ### The whole `POLL` -/

theorem execPoll_of_bitbang (hs : s.seq = .ready) (hf : s.failed = false) (hr : s.released = false)
    (hb : s.backend = .bitbang) : exec .poll s = .next (gotoSeq (.acq 0 .start) s) := by
  simp [exec, execPoll, portOpen_of_ready hs, hf, waiting_of_ready hs, hr, hb]

/-- The host's `POLL` is taken and the acquisition begins (44_poll.md R114). -/
theorem step_of_poll (hb : s.backend = .bitbang) (hs : s.seq = .ready) (hf : s.failed = false) (hr : s.released = false)
    (ht : s.turns = []) (hhost : s.host = .cmd 0x1000#16 :: h) :
    step s = .next (gotoSeq (.acq 0 .start) { s with host := h }) := by
  have hopen := portOpen_of_ready hs
  rw [step_of_one_agent ht (enabledAgents_of_cmd hhost hopen (engineEnabled_of_bitbang hb))]
  have hturn := hostTurn_of_cmd hhost hopen
  have hword : decode 0x1000#16 = .command .poll := decode_encode (i := .poll) rfl
  exact hturn.trans ((runWord_of_command hword).trans (execPoll_of_bitbang hs hf hr hb))

/-- Settles O39: the host's `POLL`, the acquisition, and the dispatch of the old and the new sample. -/
theorem bitBangPollEndToEnd : Obligations.BitBangPollEndToEnd := by
  intro s bits rest h hb hs hf hr ho hd hport ht hdev hlen hh hhost
  have hhead := noReset_acksThen (dispatchEvents s.pressSet s.releaseSet s.prev (sampleWord bits) s.n).length hh
  have hpoll := iterate_succ_of_next 0 (step_of_poll hb hs hf hr ht hhost)
  have hacq := iterate_step_acquisition (s := gotoSeq (.acq 0 .start) { s with host := acksThen _ h })
    ⟨hb, ht, hhead⟩ rfl ho hd hdev hlen
  have hdispatch := iterate_step_dispatch (s := acquired bits (gotoSeq (.acq 0 .start) { s with host := acksThen _ h }))
    ⟨hb, ht, hhead⟩ rfl hport hh rfl
  have hrun := (iterate_add_of_next _ ((iterate_add_of_next _ hpoll).trans hacq)).trans hdispatch
  refine (core_run_of_iterate _ hrun).trans ?_
  simp [dispatched, acquired, gotoSeq, hs, hdev, State.n, State.active, State.idle]

/-- Settles O40: the word is taken from the queue, and its dispatch follows. -/
theorem queuedPollEndToEnd : Obligations.QueuedPollEndToEnd := by
  intro s w rest hb hs hf hr hport hq
  refine ⟨_, execPoll_of_pending hs hf hr hb hq, ?_⟩
  refine (dispatchEmitsEveryChange (gotoSeq (.scan 0) { s with fifo := rest, cur := w }) rfl hport).trans ?_
  simp [gotoSeq, hs, State.n]

end Sys2Proof.Proofs
end

section
/-! PROOFS. The handler slots (45_lifecycle.md R124, R125). -/

namespace Sys2Proof.Proofs

open Sys2Proof.Machine

variable {s : State}

theorem exec_setrelease_of_open (en : Bool) (ho : s.portOpen = true) (hf : s.failed = false) :
    exec (.setrelease en) s = .next { s with releaseSet := en, rspLog := s.rspLog ++ [rspWord .ok 0] } := by
  have hrespond := respond_of_open (s := setReleaseFlag en s) .ok 0 ho
  rw [exec, execSetrelease, command_of_open _ ho hf, hrespond]
  rfl

/-! ### The words of the two commands (30_encoding.md R55, R57) -/

theorem encode_setpress (en : Bool) : encode (.setpress en) = 0x6000#16 ||| bitData en := by
  cases en <;> rfl

theorem encode_setrelease (en : Bool) : encode (.setrelease en) = 0x7000#16 ||| bitData en := by
  cases en <;> rfl

theorem mbzField_commandWord (op : BitVec 4) (arg : BitVec 12) :
    (commandWord op arg).extractLsb' 1 11 = arg.extractLsb' 1 11 :=
  BitVec.extractLsb'_append_eq_of_add_le (by decide)

theorem exists_reserved_of_mbz_ne_zero {op : BitVec 4} {arg : BitVec 12} (hop : op = 6#4 ∨ op = 7#4)
    (hmbz : arg.extractLsb' 1 11 ≠ 0) : ∃ why, decode (commandWord op arg) = .reserved why := by
  rw [exists_reserved_iff, exists_command_iff, not_commandFields_iff, opField_commandWord, mbzField_commandWord]
  exact .inr (.inr (.inr ⟨hop, hmbz⟩))

theorem runWord_of_mbz_ne_zero {op : BitVec 4} {arg : BitVec 12} (hop : op = 6#4 ∨ op = 7#4)
    (hmbz : arg.extractLsb' 1 11 ≠ 0) (ho : s.portOpen = true) (hf : s.failed = false) :
    runWord (commandWord op arg) s = .next { s with rspLog := s.rspLog ++ [0x10000#19] } := by
  obtain ⟨why, hwhy⟩ := exists_reserved_of_mbz_ne_zero hop hmbz
  simpa [hf] using runWord_of_reserved hwhy ho

/-! ### The obligations -/

/-- Settles O15: the body writes the one flag, and a word with a must-be-zero bit never reaches it. -/
theorem setPressWritesItsFlag : Obligations.SetPressWritesItsFlag := by
  intro en s ho
  refine ⟨exec_setpress_of_open en ho, exec_of_failed (.setpress en) ho, ?_, ?_⟩
  · exact runWord_of_command (decode_of_encode_eq rfl (encode_setpress en))
  · intro hf arg hmbz
    exact runWord_of_mbz_ne_zero (op := 6#4) (by decide) hmbz ho hf

/-- Settles O16: as O15, with the other flag. -/
theorem setReleaseWritesItsFlag : Obligations.SetReleaseWritesItsFlag := by
  intro en s ho
  refine ⟨exec_setrelease_of_open en ho, exec_of_failed (.setrelease en) ho, ?_, ?_⟩
  · exact runWord_of_command (decode_of_encode_eq rfl (encode_setrelease en))
  · intro hf arg hmbz
    exact runWord_of_mbz_ne_zero (op := 7#4) (by decide) hmbz ho hf

end Sys2Proof.Proofs
end

section
/-! PROOFS. `TEARDOWN`, each of its cases (45_lifecycle.md R122, R123; 60_exceptions.md R133). -/

namespace Sys2Proof.Proofs

open Sys2Proof.Machine

variable {s : State} {i : Nat}

theorem waiting_of_evwait (hs : s.seq = .evwait i) : s.waiting = true := by
  rw [State.waiting, hs]
  rfl

theorem exec_teardown_of_evwait (hs : s.seq = .evwait i) (hf : s.failed = false) :
    exec .teardown s = .next { s with rspLog := s.rspLog ++ [0x30000#19] } := by
  rw [exec, execTeardown, command_of_open _ (portOpen_of_evwait hs) hf, if_pos (waiting_of_evwait hs), raiseFault,
    faultWord_busy]
  rfl

/-- Outside a handler `TEARDOWN` is answered `OK`, after the release where nothing has been released yet. -/
theorem exec_teardown_of_ready (hs : s.seq = .ready) (hf : s.failed = false) :
    exec .teardown s = .next (respond .ok 0 (if s.released then s else setReleasedFlag (releaseResources s))) := by
  rw [exec, execTeardown, command_of_open _ (portOpen_of_ready hs) hf, waiting_of_ready hs]
  cases s.released <;> rfl

theorem exec_teardown_again (hs : s.seq = .ready) (hf : s.failed = false) (hr : s.released = true) :
    exec .teardown s = .next { s with rspLog := s.rspLog ++ [rspWord .ok 0] } := by
  rw [exec_teardown_of_ready hs hf, if_pos hr, respond_of_open _ _ (portOpen_of_ready hs)]

/-- The first `TEARDOWN` releases what the backend holds. -/
theorem exec_teardown_first (hs : s.seq = .ready) (hf : s.failed = false) (hr : s.released = false) :
    exec .teardown s =
      .next { releaseResources s with released := true, rspLog := s.rspLog ++ [rspWord .ok 0] } := by
  have hopen : (setReleasedFlag (releaseResources s)).portOpen = true :=
    portOpen_of_ready ((releaseResources_seq (s := s)).trans hs)
  rw [exec_teardown_of_ready hs hf, hr, if_neg Bool.false_ne_true, respond_of_open _ _ hopen, setReleasedFlag,
    releaseResources_rspLog]

/-- Settles O17: `Busy` in a handler, nothing the second time, and the first time what each backend holds. -/
theorem teardownReleasesResources : Obligations.TeardownReleasesResources := by
  intro s ho
  refine ⟨exec_of_failed .teardown ho, ?_, ?_, ?_, ?_⟩
  · rintro hf ⟨i, hs⟩
    exact exec_teardown_of_evwait hs hf
  · intro hf hs hr
    exact exec_teardown_again hs hf hr
  · intro hf hs hr hb
    rw [exec_teardown_first hs hf hr, releaseResources_of_bitbang hb]
    rfl
  · intro hf hs hr hb
    rw [exec_teardown_first hs hf hr, releaseResources_of_hwassist hb]
    rfl

end Sys2Proof.Proofs
end

section
/-! PROOFS. After `TEARDOWN` (45_lifecycle.md R123): only the host moves, and until its reset only answers leave the block. -/

namespace Sys2Proof.Proofs

open Sys2Proof.Machine Sys2Proof.Safety

variable {s t : State}

/-! ### What the invariant says of a released block -/

theorem not_holding_of_released (hr : s.released = true) : holding s = false := by
  simp [holding, hr]

theorem ready_of_released (h : Inv s) (hr : s.released = true) : s.seq = .ready :=
  h.quietUnlessHolding (not_holding_of_released hr)

theorem not_driven_of_released (h : Inv s) (hr : s.released = true) : s.sckOe = false :=
  h.clockDriven.trans (not_holding_of_released hr)

theorem eRun_of_released (h : Inv s) (hr : s.released = true) : s.eRun = false := by
  rw [h.engineRuns, not_holding_of_released hr, Bool.and_false]

theorem fifo_of_released (h : Inv s) (hr : s.released = true) : s.fifo = [] :=
  h.queueWithEngine (eRun_of_released h hr)

/-! ### The moves of a released block -/

/-- `s` with the presence bits, the answers and the inputs still to come of `x`: what a step of a released block may write. -/
def withAnswersOf (x s : State) : State :=
  { s with
    pressSet := x.pressSet, releaseSet := x.releaseSet, rspLog := x.rspLog, host := x.host, turns := x.turns,
    draws := x.draws }

/-- The commands that would begin a `POLL` or release something are those of a block that has not released. -/
theorem exec_frame_of_released {i : Instr} (hr : s.released = true) (h : exec i s = .next t) : t = withAnswersOf t s := by
  obtain ⟨ho, ⟨f, rfl, -⟩ | ⟨-, hrow⟩⟩ := exec_eq_next h
  · rfl
  rcases hrow with ⟨d, rfl⟩ | ⟨en, -, rfl⟩ | ⟨en, -, rfl⟩ | ⟨-, -, hheld, -⟩ | ⟨-, -, hheld, -⟩ | ⟨-, -, hheld, -⟩
  · rw [respond_of_open _ _ ho]
    rfl
  · rw [respond_of_open (s := setPressFlag en s) _ _ ho]
    rfl
  · rw [respond_of_open (s := setReleaseFlag en s) _ _ ho]
    rfl
  all_goals exact absurd (hr.symm.trans hheld) (by decide)

theorem runWord_frame_of_released {w : CmdWord} (hr : s.released = true) (h : runWord w s = .next t) :
    t = withAnswersOf t s := by
  rcases runWord_eq_next h with ⟨i, -, hexec⟩ | ⟨-, f, rfl⟩
  · exact exec_frame_of_released hr hexec
  · rfl

/-- The host presents a word or takes a reset; in `READY` there is no event to acknowledge. -/
theorem hostTurn_frame_or_reset_of_released (hs : s.seq = .ready) (hr : s.released = true) (h : hostTurn s = .next t) :
    t = withAnswersOf t s ∨ ∃ st rest, s.host = .reset st :: rest ∧ t = resetBlock st { s with host := rest } := by
  rcases hostTurn_eq_next h with rfl | ⟨w, rest, -, -, hword⟩ | ⟨i, rest, -, hwait, -⟩ | hreset
  · exact .inl rfl
  · exact .inl (runWord_frame_of_released (s := { s with host := rest }) hr hword)
  · cases hs.symm.trans hwait
  · exact .inr hreset

/-- The sequencer has no step in `READY`, and the engine does not run. -/
theorem agentTurn_frame_or_reset_of_released {a : Agent} (hinv : Inv s) (hr : s.released = true) (h : agentTurn a s = .next t) :
    t = withAnswersOf t s ∨ ∃ st rest, s.host = .reset st :: rest ∧ t = resetBlock st { s with host := rest } := by
  have hs := ready_of_released hinv hr
  cases a with
  | host => exact hostTurn_frame_or_reset_of_released hs hr h
  | sequencer =>
    cases (seqStep_of_not_moves (by rw [hs]; rfl)).symm.trans h
    exact .inl rfl
  | engine =>
    have hdead : engineLive s = false := by rw [engineLive, eRun_of_released hinv hr, Bool.and_false]
    cases (engineStep_of_not_live hdead).symm.trans h
    exact .inl rfl

theorem step_frame_or_reset_of_released (hinv : Inv s) (hr : s.released = true) (h : step s = .next t) :
    t = withAnswersOf t s ∨ ∃ st rest, s.host = .reset st :: rest ∧ t = resetBlock st { s with
      host := rest, turns := t.turns, draws := t.draws } := by
  rcases step_cases s with hwait | ⟨a, ts, d, hmove⟩
  · cases hwait.symm.trans h
    exact .inl rfl
  · rcases agentTurn_frame_or_reset_of_released (inv_inputs hinv s.host ts s.device d) hr (hmove.symm.trans h) with
      hframe | ⟨st, rest, hhost, rfl⟩
    · exact .inl hframe
    · exact .inr ⟨st, rest, hhost, rfl⟩

/-- Settles O56: a released block's step writes answers, or it is the host's reset, which records nothing either. -/
theorem releasedBlockTouchesNothing : Obligations.ReleasedBlockTouchesNothing := by
  intro s t hinv hr h
  rcases step_frame_or_reset_of_released hinv hr h with hframe | ⟨st, rest, hhost, hreset⟩
  · have hqueue := fifo_of_released hinv hr
    have hclock := not_driven_of_released hinv hr
    rw [hframe]
    exact ⟨rfl, hqueue, rfl, rfl, .inl ⟨hr, rfl, rfl, hclock⟩⟩
  · rw [hreset]
    exact ⟨rfl, rfl, rfl, rfl, .inr ⟨st, rest, hhost, rfl, rfl, rfl, rfl, rfl, rfl⟩⟩

end Sys2Proof.Proofs
end

section
/-! PROOFS. `POLL` on `BITBANG` (46_operation_classes.md R168). -/

namespace Sys2Proof.Proofs

open Sys2Proof.Machine

/-- Settles O25: an accepted `POLL` on `BITBANG` only moves the sequencer, to the start of the acquisition. -/
theorem pollStartsBitBangAcquisition : Obligations.PollStartsBitBangAcquisition := by
  intro s hs hf hr hb
  exact execPoll_of_bitbang hs hf hr hb

end Sys2Proof.Proofs
end

section
/-! PROOFS. The fault responses (60_exceptions.md R129, R131, R132, R133): what raises each, and that it is the whole effect. -/

namespace Sys2Proof.Proofs

open Sys2Proof.Machine Sys2Proof.Safety

variable {s t : State} {i : Nat}

/-! ### What a word's response says of its effect -/

/-- The data field of a response word is its data (30_encoding.md R62). -/
theorem rspWord_data (st : Status) (d : Word) : (rspWord st d).extractLsb' 0 16 = d :=
  BitVec.extractLsb'_append_eq_right

/-- A word from the port raises a fault, is answered `OK`, or is a `POLL` that goes on without an answer yet. -/
theorem runWord_faults_or_rspLog {w : CmdWord} (h : runWord w s = .next t) :
    (∃ f, t = raiseFault f s) ∨ (∃ d, t.rspLog = s.rspLog ++ [rspWord .ok d]) ∨ t.rspLog = s.rspLog := by
  rcases runWord_eq_next h with ⟨c, -, he⟩ | ⟨-, hfault⟩
  swap
  · exact .inl hfault
  obtain ⟨-, ⟨f, hfault, -⟩ | ⟨-, hrow⟩⟩ := exec_eq_next he
  · exact .inl ⟨f, hfault⟩
  rcases hrow with ⟨d, rfl⟩ | ⟨en, -, rfl⟩ | ⟨en, -, rfl⟩ | ⟨-, -, -, rfl⟩ | ⟨-, -, -, -, rfl⟩ |
    ⟨-, -, -, -, v, rest, -, rfl⟩
  · exact .inr (.inl ⟨d, rfl⟩)
  · exact .inr (.inl ⟨0, rfl⟩)
  · exact .inr (.inl ⟨0, rfl⟩)
  · exact .inr (.inl ⟨0, congrArg (· ++ _) releaseResources_rspLog⟩)
  · exact .inr (.inr rfl)
  · exact .inr (.inr rfl)

/-- The data of a fault response: `ERRVAL` for `AcquireFailed`, whose status is 4, and 0 for the others. -/
theorem faultWord_data (f : CmdFault) (s : State) :
    (faultWord f s).extractLsb' 0 16 = if rspStatus (faultWord f s) = 4#3 then s.errval else 0#16 := by
  rw [rspStatus, faultWord, rspWord_data, rspWord_status]
  cases f <;> rfl

/-- Settles O22: an answer other than `OK` is a fault's, and the one fault operation only answers. -/
theorem faultResponseIsWholeEffect : Obligations.FaultResponseIsWholeEffect := by
  intro w s t r h hr hstatus
  rcases runWord_faults_or_rspLog h with ⟨f, rfl⟩ | ⟨d, hok⟩ | hnone
  · obtain rfl : faultWord f s = r := by simpa [raiseFault] using hr
    exact ⟨rfl, faultWord_data f s⟩
  · obtain rfl : rspWord .ok d = r := by simpa [hok] using hr
    exact absurd (rspWord_status .ok d) hstatus
  · simp [hnone] at hr

/-! ### A block that failed (R131) -/

theorem not_holding_of_failed (hf : s.failed = true) : holding s = false := by
  simp [holding, hf]

theorem wire_of_not_driven (ho : s.sckOe = false) : s.wire = none := by
  simp [State.wire, ho]

/-- The engine does not run in a block that does not hold its resources. -/
theorem engineLive_of_not_holding (h : Inv s) (hh : holding s = false) : engineLive s = false := by
  rw [engineLive, h.engineRuns, hh, Bool.and_false, Bool.and_false]

/-- `FAILED` is tested for a reserved word as for a command (R137). -/
theorem runWord_of_failed (w : CmdWord) (ho : s.portOpen = true) (hf : s.failed = true) :
    runWord w s = .next { s with rspLog := s.rspLog ++ [4#3 ++ s.errval] } := by
  cases hd : decode w with
  | command c => rw [runWord_of_command hd, exec_of_failed c ho hf]
  | reserved why => rw [runWord_of_reserved hd ho, if_pos hf]

/-- Settles O19: every word meets the test of `FAILED` first, and a failed block holds nothing to drive or run. -/
theorem failedBlockAnswersEveryWord : Obligations.FailedBlockAnswersEveryWord := by
  refine ⟨fun w s ho hf => runWord_of_failed w ho hf, ?_, fun p st hfail => ⟨hfail, rfl⟩⟩
  intro s h hf
  have hh := not_holding_of_failed hf
  exact ⟨h.quietUnlessHolding hh, wire_of_not_driven (h.clockDriven.trans hh),
    engineStep_of_not_live (engineLive_of_not_holding h hh)⟩

/-! ### The commands that raise no fault of their own -/

/-- The accessors and the two slot commands are answered `OK` wherever the port is open, and write at most the presence bits. -/
theorem exec_of_not_poll_of_not_teardown {c : Instr} (hpoll : c ≠ .poll) (hteardown : c ≠ .teardown)
    (ho : s.portOpen = true) (hf : s.failed = false) : ∃ d : Word, ∃ pressSet releaseSet : Bool,
      exec c s = .next { s with
        pressSet := pressSet, releaseSet := releaseSet, rspLog := s.rspLog ++ [rspWord .ok d] } := by
  cases c with
  | poll => exact absurd rfl hpoll
  | teardown => exact absurd rfl hteardown
  | sample => exact ⟨_, s.pressSet, s.releaseSet, exec_sample_of_open ho hf⟩
  | channel idx => exact ⟨_, s.pressSet, s.releaseSet, exec_channel_of_open idx ho hf⟩
  | count => exact ⟨_, s.pressSet, s.releaseSet, exec_count_of_open ho hf⟩
  | setpress en => exact ⟨0, en, s.releaseSet, exec_setpress_of_open en ho hf⟩
  | setrelease en => exact ⟨0, s.pressSet, en, exec_setrelease_of_open en ho hf⟩

/-! ### After `TEARDOWN` (R132) -/

theorem exec_poll_of_released (hs : s.seq = .ready) (hf : s.failed = false) (hr : s.released = true) :
    exec .poll s = .next { s with rspLog := s.rspLog ++ [0x20000#19] } := by
  rw [exec, execPoll, command_of_open _ (portOpen_of_ready hs) hf, waiting_of_ready hs, if_neg Bool.false_ne_true,
    if_pos hr, raiseFault, faultWord_useAfterRelease]
  rfl

/-- Settles O20: a `POLL` finds `RELEASED`, a second `TEARDOWN` only answers, and the others do not test it. -/
theorem onlyPollFaultsAfterTeardown : Obligations.OnlyPollFaultsAfterTeardown := by
  intro s hs hf hr
  refine ⟨exec_poll_of_released hs hf hr, fun c hpoll => ?_⟩
  by_cases hteardown : c = .teardown
  · subst hteardown
    exact ⟨0, s.pressSet, s.releaseSet, exec_teardown_again hs hf hr⟩
  · exact exec_of_not_poll_of_not_teardown hpoll hteardown (portOpen_of_ready hs) hf

/-! ### Inside a handler (R133) -/

theorem exec_poll_of_evwait (hs : s.seq = .evwait i) (hf : s.failed = false) :
    exec .poll s = .next { s with rspLog := s.rspLog ++ [0x30000#19] } := by
  rw [exec, execPoll, command_of_open _ (portOpen_of_evwait hs) hf, if_pos (waiting_of_evwait hs), raiseFault,
    faultWord_busy]
  rfl

/-- Settles O21: `POLL` and `TEARDOWN` find the block waiting, and the others do not test it. -/
theorem onlyPollAndTeardownAreBusyInHandler : Obligations.OnlyPollAndTeardownAreBusyInHandler := by
  intro s i hs hf
  refine ⟨exec_poll_of_evwait hs hf, exec_teardown_of_evwait hs hf, fun c hpoll hteardown => ?_⟩
  obtain ⟨d, pressSet, releaseSet, hexec⟩ :=
    exec_of_not_poll_of_not_teardown hpoll hteardown (portOpen_of_evwait hs) hf
  exact ⟨_, d, hexec, rfl, hs⟩

end Sys2Proof.Proofs
end

section
/-! PROOFS. Which moves emit an event (42_edge_dispatch.md R103, 60_exceptions.md R136). -/

namespace Sys2Proof.Proofs

open Sys2Proof.Machine Sys2Proof.Safety

variable {s t : State}

theorem drawLevel_evLog (s : State) : (drawLevel s).2.evLog = s.evLog := by
  rw [drawLevel_frame]

theorem acqStep_keeps_evLog {i : Nat} {ph : Phase} (h : acqStep i ph s = .next t) : t.evLog = s.evLog := by
  rcases acqStep_eq_next h with ⟨-, -, -, rfl⟩ | ⟨-, -, -, rfl⟩ | ⟨-, -, -, rfl⟩ | ⟨-, -, -, rfl⟩ | ⟨-, -, -, rfl⟩
  · rfl
  · rfl
  · exact drawLevel_evLog s
  · rfl
  · rfl

/-- The sequencer emits nothing, or the event of the changed bit it scans. -/
theorem seqStep_keeps_evLog_or_emits (h : seqStep s = .next t) :
    t.evLog = s.evLog ∨
      ∃ i k, s.seq = .scan i ∧ i < s.n ∧ edge s.prev s.cur i = some k ∧ t = emitEvent k i s := by
  rcases seqStep_eq_next h with ⟨-, rfl⟩ | ⟨i, ph, -, hacq⟩ | ⟨i, hs, hscan⟩
  · exact .inl rfl
  · exact .inl (acqStep_keeps_evLog hacq)
  · rcases scanStep_eq_next hscan with ⟨k, hi, he, rfl⟩ | ⟨-, -, rfl⟩ | ⟨-, rfl⟩
    · exact .inr ⟨i, k, hs, hi, edge_of_edgeEvent he, rfl⟩
    · exact .inl rfl
    · exact .inl rfl

theorem engineStep_keeps_evLog (h : engineStep s = .next t) : t.evLog = s.evLog := by
  rw [engineStep_frame h]
  rfl

theorem runWord_keeps_evLog {w : CmdWord} (h : runWord w s = .next t) : t.evLog = s.evLog := by
  obtain ⟨⟨-, -, -, -, -, -, -, -, -, -, -, -, -, -, hev, -⟩, -⟩ := commandFrame w s t h
  exact hev

/-- Of the host's moves none emits: an acknowledge and a reset only withdraw the word on the event port. -/
theorem hostTurn_keeps_evLog (h : hostTurn s = .next t) : t.evLog = s.evLog := by
  rcases hostTurn_eq_next h with rfl | ⟨w, rest, -, -, hword⟩ | ⟨i, rest, -, -, rfl⟩ | ⟨st, rest, -, rfl⟩
  · rfl
  · exact runWord_keeps_evLog (s := { s with host := rest }) hword
  · rfl
  · rfl

theorem agentTurn_keeps_evLog_or_emits {a : Agent} (h : agentTurn a s = .next t) :
    t.evLog = s.evLog ∨
      ∃ i k, s.seq = .scan i ∧ i < s.n ∧ edge s.prev s.cur i = some k ∧ t = emitEvent k i s := by
  cases a with
  | host => exact .inl (hostTurn_keeps_evLog h)
  | sequencer => exact seqStep_keeps_evLog_or_emits h
  | engine => exact .inl (engineStep_keeps_evLog h)

theorem getLsbD_ne_of_edge {prev cur : Word} {i : Nat} {k : EvKind} (h : edge prev cur i = some k) :
    cur.getLsbD i ≠ prev.getLsbD i := by
  intro hsame
  cases (edge_eq_none_iff.2 hsame).symm.trans h

/-- Settles O57: of all moves only the scan of a changed bit emits, and its event names the bit. -/
theorem eventsLeaveOnlyFromTheScan : Obligations.EventsLeaveOnlyFromTheScan := by
  intro s t h
  rcases step_cases s with hwait | ⟨a, ts, d, hmove⟩
  · cases hwait.symm.trans h
    exact .inl rfl
  · refine (agentTurn_keeps_evLog_or_emits (hmove.symm.trans h)).imp_right ?_
    rintro ⟨i, k, hs, hi, he, rfl⟩
    have hindex : evIndex (evWord k i) = i := evIndex_evWord k (hi.trans_le (n_le_sixteen s))
    exact ⟨i, evWord k i, hs, hi, rfl, rfl, rfl, hindex, getLsbD_ne_of_edge he⟩

end Sys2Proof.Proofs
end

section
/-! PROOFS. Reset at any time (70_reset_and_hazards.md R147, R152). -/

namespace Sys2Proof.Proofs

open Sys2Proof.Machine

variable {s : State} {st : Straps} {rest : List HostAct}

theorem hostTurn_of_reset (hh : s.host = .reset st :: rest) :
    hostTurn s = .next (resetBlock st { s with host := rest }) := by
  simp [hostTurn, hh]

/-- A reset is taken in every position, so with the other agents unable to move the host is the one that can. -/
theorem enabledAgents_of_reset (hh : s.host = .reset st :: rest) (hs : seqEnabled s = false)
    (he : engineEnabled s = false) : enabledAgents s = [.host] := by
  simp [enabledAgents, hostEnabled, hh, hs, he]

/-- Settles O48: the host is the mover on both schedules, and its move is the reset. -/
theorem resetAtAnyTime : Obligations.ResetAtAnyTime := by
  intro s st rest ts hh hsched
  rcases hsched with ht | ⟨ht, rfl, hs, he⟩
  · exact (step_of_turns_cons ht).trans (hostTurn_of_reset hh)
  · have hstep := (step_of_one_agent ht (enabledAgents_of_reset hh hs he)).trans (hostTurn_of_reset hh)
    rw [hstep, resetBlock, ht]

end Sys2Proof.Proofs
end
